-- ==== Sys2Proof/Word.lean ====
section
/-! DEFINITION. The block's value types (spec/00_scope.md R7, R11; spec/30_encoding.md R91). -/

namespace Sys2Proof

/-- A 32-bit value: an `s32` or a `u32` of R11, told apart by the operator that reads it. -/
abbrev Word := BitVec 32

/-- A `u2` value: a raw state, the two pin levels as one number (R7, R14). -/
abbrev RawState := BitVec 2

/-- The key of the transition table, `(old raw state, new raw state)` (R15, R93). -/
abbrev LutKey := BitVec 4

/-- The command word, format C (R91). -/
abbrev CommandWord := BitVec 35

end Sys2Proof
end

