-- ==== Sys2Proof/Config.lean ====
section
/-! DEFINITION. What is fixed when a block is built, and the latch modes (spec/00_scope.md R8; spec/10_state.md R31). -/

namespace Sys2Proof

/-- The three latch modes of R31. The reserved code 0b00 is no mode. -/
inductive LatchMode where
  | fourLatchAt3
  | fourLatchAt0
  | twoLatchAt0And3
deriving DecidableEq, Repr

/-- The configuration parameters of R8 that are fixed when a block is built (MODE is loaded at reset and is state). -/
structure Config where
  /-- LATCHES_PER_REV: latch events per revolution, an integer >= 1 (R196). -/
  latchesPerRev : Nat
  /-- RPM_SENTINEL: the `rsp_data` of GET_RPM at a zero interval (R197). -/
  rpmSentinel : Word
deriving DecidableEq, Repr

/-- The reference hardware's values (R8). -/
def Config.reference : Config := { latchesPerRev := 20, rpmSentinel := 0 }

/-- MS_PER_MINUTE, a constant and not a parameter (R8, R195). -/
def msPerMinute : Nat := 60000

/-- The mode of a reset whose host gives none (R31). -/
def defaultMode : LatchMode := .fourLatchAt0

end Sys2Proof
end

