-- ==== Sys2Proof/Syntax.lean ====
section
/-! DEFINITION. The six commands (spec/30_encoding.md R96, one constructor per row of spec/opcode_table.json). -/

namespace Sys2Proof

/-- A command as the block executes it. Only SET_POSITION has an operand; every other command ignores `arg` (R94). -/
inductive Instr where
  /-- TICK, op 0b000 (R120). -/
  | tick
  /-- GET_POSITION, op 0b001 (R150). -/
  | getPosition
  /-- GET_DIRECTION, op 0b010 (R170). -/
  | getDirection
  /-- SET_POSITION, op 0b011; `n` is `arg` as an s32 (R152). -/
  | setPosition (n : Word)
  /-- GET_MILLIS_BETWEEN_ROTATIONS, op 0b100 (R190). -/
  | getMillisBetweenRotations
  /-- GET_RPM, op 0b101 (R193). -/
  | getRpm
deriving DecidableEq, Repr

end Sys2Proof
end

