-- ==== Sys2Proof/WellFormed.lean ====
section
/-! DEFINITION. The checks on encodings and configuration: what the spec refuses (spec/30_encoding.md R98, R99). -/

namespace Sys2Proof

/-- Every command is well formed: R98 says there are no illegal operand values. -/
def Instr.wellFormed : Instr → Bool
  | .tick => true
  | .getPosition => true
  | .getDirection => true
  | .setPosition _ => true
  | .getMillisBetweenRotations => true
  | .getRpm => true

/-- A configuration is one the spec admits when LATCHES_PER_REV is at least 1 (R196). -/
def Config.wellFormed (cfg : Config) : Bool := decide (1 ≤ cfg.latchesPerRev)

/-- A MODE code is defined unless it is 0b00 (R31). -/
def modeCodeWellFormed (code : BitVec 2) : Bool := decide (code ≠ 0b00#2)

/-- A command code is defined unless it is 0b110 or 0b111 (R98). -/
def opWellFormed (op : BitVec 3) : Bool := decide (op ≠ 0b110#3 ∧ op ≠ 0b111#3)

end Sys2Proof
end

