-- ==== Sys2Proof/Decode.lean ====
section
/-! DEFINITION. The decoder and the encoder of format C (spec/30_encoding.md R91, R94, R96, R98, R102) and the MODE codes
(spec/10_state.md R31). -/

namespace Sys2Proof

/-- Why a word is no command (R98). -/
inductive DecodeError where
  /-- The op field is a reserved command code. -/
  | reservedCommand (op : BitVec 3)
deriving DecidableEq, Repr

/-- `op = cmd[2:0]` (R91). -/
def opField (cmd : CommandWord) : BitVec 3 := cmd.extractLsb' 0 3

/-- `arg = cmd[34:3]` (R91, R94): no extension, scaling or shift. -/
def argField (cmd : CommandWord) : Word := cmd.extractLsb' 3 32

/-- Dispatch on the op field (R97). The last arm is reached by 0b110 and 0b111 alone (R98). -/
def decode (cmd : CommandWord) : Except DecodeError Instr :=
  match opField cmd with
  | 0b000#3 => .ok .tick
  | 0b001#3 => .ok .getPosition
  | 0b010#3 => .ok .getDirection
  | 0b011#3 => .ok (.setPosition (argField cmd))
  | 0b100#3 => .ok .getMillisBetweenRotations
  | 0b101#3 => .ok .getRpm
  | op => .error (.reservedCommand op)

/-- The command code of R96. -/
def opcode : Instr → BitVec 3
  | .tick => 0b000
  | .getPosition => 0b001
  | .getDirection => 0b010
  | .setPosition _ => 0b011
  | .getMillisBetweenRotations => 0b100
  | .getRpm => 0b101

/-- The `arg` the assembler writes: 0 for every command but SET_POSITION (R101). -/
def operand : Instr → Word
  | .tick => 0
  | .getPosition => 0
  | .getDirection => 0
  | .setPosition n => n
  | .getMillisBetweenRotations => 0
  | .getRpm => 0

/-- The command word, arg in the high bits and op in the low bits (R91, R102). -/
def encode (i : Instr) : CommandWord := operand i ++ opcode i

/-- The command word of a table word: the low `nbits` bits of `w`, as far as the 35-bit port carries them.
DESIGN CHOICE (log entry 10). -/
def commandOfTable (nbits w : Nat) : CommandWord := BitVec.ofNat 35 (w % 2 ^ nbits)

/-- The instruction the decoder reads from a word numbered as spec/opcode_table.json numbers it. -/
def decodeTableWord (nbits w : Nat) : Option Instr :=
  match decode (commandOfTable nbits w) with
  | .ok i => some i
  | .error _ => none

/-- The MODE code of a mode (R31). -/
def modeCode : LatchMode → BitVec 2
  | .fourLatchAt3 => 0b01
  | .fourLatchAt0 => 0b10
  | .twoLatchAt0And3 => 0b11

/-- The mode of a MODE code; 0b00 is reserved (R31). -/
def modeOfCode (code : BitVec 2) : Option LatchMode :=
  match code with
  | 0b01#2 => some .fourLatchAt3
  | 0b10#2 => some .fourLatchAt0
  | 0b11#2 => some .twoLatchAt0And3
  | _ => none

end Sys2Proof
end

