-- ==== Sys2Proof/Machine/State.lean ====
section
/-! DEFINITION. The block's state, its ports, why a step stops, and the state after reset
(spec/10_state.md R30 to R42; spec/30_encoding.md R90, R99; spec/70_reset_and_hazards.md R250, R251). -/

namespace Sys2Proof.Machine

/-- The input ports of R90, each sampled once per step. -/
structure Ports where
  /-- `rst`: reset request. -/
  rst : Bool
  /-- `cfg_mode`: the MODE code to load, read in a reset step only. -/
  cfgMode : BitVec 2
  /-- `cmd`: the command word, read in a command step only. -/
  cmd : CommandWord
  /-- `pin_a`: the line that gives bit 0 of the raw state. -/
  pinA : BitVec 1
  /-- `pin_b`: the line that gives bit 1 of the raw state. -/
  pinB : BitVec 1
  /-- `now_ms`: the external millisecond clock. -/
  nowMs : Word
deriving DecidableEq, Repr

/-- `rsp_data` and `rsp_undef` when `rsp_valid` = 1 (R90, R95). -/
structure Response where
  data : Word
  undef : Bool
deriving DecidableEq, Repr

/-- The block (R39), its configuration (R8), its ports (R90) and the steps the host will present (R16). -/
structure State where
  /-- LATCHES_PER_REV and RPM_SENTINEL; no step writes them (log entry 3). -/
  cfg : Config
  /-- A reset step has happened: no command may come before the first one (R251, log entry 7). -/
  constructed : Bool
  /-- MODE (R31). -/
  mode : LatchMode
  /-- RAW_STATE (R33). -/
  rawState : RawState
  /-- INTERNAL_POS (R34). -/
  internalPos : Word
  /-- EXTERNAL_POS (R35). -/
  externalPos : Word
  /-- PREV_EXTERNAL_POS (R36). -/
  prevExternalPos : Word
  /-- LAST_CHANGE_TIME (R37). -/
  lastChangeTime : Word
  /-- PRIOR_CHANGE_TIME (R38). -/
  priorChangeTime : Word
  /-- The input ports as the current step samples them (R90). -/
  ports : Ports
  /-- The response of the latest step; `none` is `rsp_valid` = 0 (R95, log entry 6). -/
  rsp : Option Response
  /-- The steps the host will present, oldest first (R16, R78, log entry 1). -/
  host : List Ports
deriving DecidableEq, Repr

/-- The block raises no fault: "the model has no fault outcome" (R17). -/
inductive Fault where
deriving DecidableEq, Repr

/-- Why a step has no next state. All are safe: nothing can be proved of the state after one. -/
inductive Refusal where
  /-- Raised by exec's arm of an instruction without a meaning; no arm raises it now. Safe. -/
  | notModelled (mnemonic : String)
  /-- Raised by a command step whose op field is reserved (R98). Safe. -/
  | reservedCommand (op : BitVec 3)
  /-- Raised by a reset step with `cfg_mode` = 0b00 (R250). Safe. -/
  | reservedMode
  /-- Raised by any step of a block configured with LATCHES_PER_REV = 0 (R99, R196). Safe. -/
  | reservedConfiguration
  /-- Raised by a command step before the first reset (R251, 93_implementation_defined.md I9). Safe. -/
  | commandBeforeReset
  /-- Raised when the host presents no step: "The block has no idle step" (R97, log entry 2). Safe. -/
  | noStepPresented
deriving DecidableEq, Repr

/-- The ports after a reset that nothing on the other ports accompanied. DESIGN CHOICE (log entry 5): R252 says idle lines
read 1. -/
def Ports.afterReset : Ports :=
  { rst := true, cfgMode := modeCode defaultMode, cmd := 0, pinA := 1, pinB := 1, nowMs := 0 }

/-- The reference block right after a reset whose host gives no mode (R39, R250). No step is presented yet (log entry 2). -/
def State.reset : State :=
  { cfg := Config.reference
    constructed := true
    mode := defaultMode
    rawState := 3
    internalPos := 0
    externalPos := 0
    prevExternalPos := 0
    lastChangeTime := 0
    priorChangeTime := 0
    ports := Ports.afterReset
    rsp := none
    host := [] }

end Sys2Proof.Machine
end

