-- ==== Sys2Proof/Machine/Ops.lean ====
section
/-! DEFINITION. The operations the steps share: register writes, responses, taking the host's next step, its command, and the
reset. The block has no memory (R70) and takes no exception (R220, R224), so there is no operation for either. -/

namespace Sys2Proof.Machine

/-- `S.RAW_STATE <- v` (R12). -/
def State.setRawState (s : State) (v : RawState) : State := { s with rawState := v }
/-- `S.INTERNAL_POS <- v` (R12). -/
def State.setInternalPos (s : State) (v : Word) : State := { s with internalPos := v }
/-- `S.EXTERNAL_POS <- v` (R12). -/
def State.setExternalPos (s : State) (v : Word) : State := { s with externalPos := v }
/-- `S.PREV_EXTERNAL_POS <- v` (R12). -/
def State.setPrevExternalPos (s : State) (v : Word) : State := { s with prevExternalPos := v }
/-- `S.LAST_CHANGE_TIME <- v` (R12). -/
def State.setLastChangeTime (s : State) (v : Word) : State := { s with lastChangeTime := v }
/-- `S.PRIOR_CHANGE_TIME <- v` (R12). -/
def State.setPriorChangeTime (s : State) (v : Word) : State := { s with priorChangeTime := v }

/-- `respond(v)` (R13). -/
def State.respond (s : State) (v : Word) : State := { s with rsp := some { data := v, undef := false } }
/-- `respond_undef(v)` (R13). -/
def State.respondUndef (s : State) (v : Word) : State := { s with rsp := some { data := v, undef := true } }
/-- `no_response` (R13). -/
def State.noResponse (s : State) : State := { s with rsp := none }

/-- The ports sample the values `p`, and `later` is what the host presents afterwards (R90). -/
def State.sample (s : State) (p : Ports) (later : List Ports) : State := { s with ports := p, host := later }

/-- Every state element gets its reset value, and MODE gets `m` (R39, R250). -/
def State.construct (s : State) (m : LatchMode) : State :=
  { s with
    constructed := true
    mode := m
    rawState := 3
    internalPos := 0
    externalPos := 0
    prevExternalPos := 0
    lastChangeTime := 0
    priorChangeTime := 0 }

/-- The host's next step: the first of `host` (R78, R97). A block configured with LATCHES_PER_REV = 0 is refused (R99). -/
def takeStep (s : State) : Except Refusal State :=
  match s.host with
  | [] => .error .noStepPresented
  | p :: later => if s.cfg.wellFormed then .ok (s.sample p later) else .error .reservedConfiguration

/-- The reset step (R250). -/
def resetBlock (cfgMode : BitVec 2) (s : State) : Host.Outcome State Fault Refusal :=
  match modeOfCode cfgMode with
  | none => .refused .reservedMode
  | some m => .next (s.construct m).noResponse

/-- The command of a step with `rst` = 0 (R97, R98, R251). -/
def fetchCommand (s : State) : Except Refusal Instr :=
  if s.constructed then
    match decode s.ports.cmd with
    | .ok i => .ok i
    | .error (.reservedCommand op) => .error (.reservedCommand op)
  else .error .commandBeforeReset

/-- The host presents `cmd` in its next step, with the other ports as that step has them or, where none is pending, as they
stand now. DESIGN CHOICE (log entry 11). -/
def State.presentCommand (s : State) (cmd : CommandWord) : State :=
  match s.host with
  | [] => { s with host := [{ s.ports with rst := false, cmd := cmd }] }
  | p :: later => { s with host := { p with rst := false, cmd := cmd } :: later }

end Sys2Proof.Machine
end

