-- ==== Sys2Proof/Machine/Operands.lean ====
section
/-! DEFINITION. The operators of spec/00_scope.md R11, the transition table, the functions of MODE, and the values a command
reads (spec/10_state.md R30, R32; spec/30_encoding.md R92, R93; spec/41_position.md R151; spec/43_speed.md R192). -/

namespace Sys2Proof.Machine

/-- `a +32 b` (R11). -/
def add32 (a b : Word) : Word := a + b
/-- `a -32 b` (R11). -/
def sub32 (a b : Word) : Word := a - b
/-- `a >>a n`: arithmetic right shift (R11). -/
def sar32 (a : Word) (n : Nat) : Word := a.sshiftRight n
/-- `a <<32 n`: the bits shifted out of bit 31 are discarded (R11). -/
def shl32 (a : Word) (n : Nat) : Word := a <<< n
/-- `max_u(a, b)` (R11). -/
def maxU (a b : Word) : Word := if a < b then b else a
/-- `a <s b`: signed comparison (R11). -/
def ltS (a b : Word) : Bool := a.slt b

/-- The transition table, entry k at index k, as signed 2-bit numbers (R30). -/
def lutTable : List (BitVec 2) :=
  [ 0, -1,  1,  0,
    1,  0,  0, -1,
   -1,  0,  0,  1,
    0,  1, -1,  0]

/-- `LUT[k]` (R30). A 4-bit key is always in range (R74). -/
def lut (key : LutKey) : BitVec 2 := lutTable.getD key.toNat 0

/-- `sext_32(LUT[k])` (R11, R120). -/
def delta (key : LutKey) : Word := (lut key).signExtend 32

/-- `shift(MODE)` (R32). -/
def shift : LatchMode → Nat
  | .fourLatchAt3 => 2
  | .fourLatchAt0 => 2
  | .twoLatchAt0And3 => 1

/-- `isLatch(MODE, s)` (R32). -/
def isLatch (m : LatchMode) (raw : RawState) : Bool :=
  match m with
  | .fourLatchAt3 => raw == 3
  | .fourLatchAt0 => raw == 0
  | .twoLatchAt0And3 => raw == 0 || raw == 3

/-- `cur`, with `pin_b` above `pin_a` (R92, R121). -/
def pinSample (p : Ports) : RawState := p.pinB ++ p.pinA

/-- `key`, with RAW_STATE above `cur` (R93). -/
def lutKey (raw cur : RawState) : LutKey := raw ++ cur

/-- The sub-latch phase: the low `shift(MODE)` bits of INTERNAL_POS (R151). -/
def subLatchPhase (m : LatchMode) (internal : Word) : Word := internal &&& BitVec.ofNat 32 (2 ^ shift m - 1)

/-- `tB`: the time between the last two latch events (R192). -/
def betweenLatches (s : State) : Word := sub32 s.lastChangeTime s.priorChangeTime

/-- `tS`: the time since the last latch event (R192). -/
def sinceLatch (s : State) : Word := sub32 s.ports.nowMs s.lastChangeTime

/-- `t`: the larger of the two intervals (R193, R194). -/
def rpmInterval (s : State) : Word := maxU (betweenLatches s) (sinceLatch s)

/-- `floor(60000 / D)` with D the exact product `t * LATCHES_PER_REV` (R195); at most 60000, so it fits 32 bits. -/
def rpmQuotient (t : Word) (latchesPerRev : Nat) : Word := BitVec.ofNat 32 (msPerMinute / (t.toNat * latchesPerRev))

end Sys2Proof.Machine
end

