-- ==== Sys2Proof/Machine/Flags.lean ====
section
/-! DEFINITION. The block has no flag or condition code (spec/10_state.md R42). The status information that leaves it is the
direction code (spec/42_direction.md R170, R173) and the undefined bit of GET_RPM (spec/43_speed.md R197). -/

namespace Sys2Proof.Machine

/-- What GET_DIRECTION reports (R173). -/
inductive Direction where
  | clockwise
  | counterclockwise
  | noRotation
deriving DecidableEq, Repr

/-- The sense of the change from `prev` to `ext`, by signed comparison (R170). -/
def directionOf (prev ext : Word) : Direction :=
  if ltS prev ext then .clockwise else if ltS ext prev then .counterclockwise else .noRotation

/-- The direction code as an s32 (R95). -/
def directionCode : Direction → Word
  | .clockwise => 1
  | .counterclockwise => 0xFFFFFFFF
  | .noRotation => 0

/-- The undefined bit of GET_RPM is set exactly at a zero interval (R193, R197). -/
def rpmUndefined (t : Word) : Bool := t == 0

end Sys2Proof.Machine
end

