-- ==== Sys2Proof/Machine/Direction.lean ====
section
/-! DEFINITION. The direction tracker (spec/42_direction.md R170). -/

namespace Sys2Proof.Machine

/-- GET_DIRECTION: the snapshot is compared, then overwritten in every branch (R170). -/
def execGetDirection (s : State) : Host.Outcome State Fault Refusal :=
  .next ((s.setPrevExternalPos s.externalPos).respond (directionCode (directionOf s.prevExternalPos s.externalPos)))

end Sys2Proof.Machine
end

