-- ==== Sys2Proof/Machine/Position.lean ====
section
/-! DEFINITION. The position accumulator's access commands (spec/41_position.md R150 to R154). -/

namespace Sys2Proof.Machine

/-- GET_POSITION (R150). -/
def execGetPosition (s : State) : Host.Outcome State Fault Refusal := .next (s.respond s.externalPos)

/-- INTERNAL_POS after SET_POSITION: `n` shifted left, over the kept phase (R152, R154). -/
def repositioned (m : LatchMode) (internal n : Word) : Word := shl32 n (shift m) ||| subLatchPhase m internal

/-- SET_POSITION (R152). -/
def execSetPosition (n : Word) (s : State) : Host.Outcome State Fault Refusal :=
  .next (((s.setInternalPos (repositioned s.mode s.internalPos n)).setExternalPos n).setPrevExternalPos n).noResponse

end Sys2Proof.Machine
end

