-- ==== Sys2Proof/Machine/Speed.lean ====
section
/-! DEFINITION. The speed estimator (spec/43_speed.md R190 to R199). -/

namespace Sys2Proof.Machine

/-- GET_MILLIS_BETWEEN_ROTATIONS (R190). -/
def execGetMillisBetweenRotations (s : State) : Host.Outcome State Fault Refusal := .next (s.respond (betweenLatches s))

/-- GET_RPM (R193). LATCHES_PER_REV = 0 is no configuration of a block and is refused (R196). -/
def execGetRpm (s : State) : Host.Outcome State Fault Refusal :=
  if s.cfg.wellFormed then
    let t := rpmInterval s
    if rpmUndefined t then .next (s.respondUndef s.cfg.rpmSentinel)
    else .next (s.respond (rpmQuotient t s.cfg.latchesPerRev))
  else .refused .reservedConfiguration

end Sys2Proof.Machine
end

