-- ==== Sys2Proof/Machine/Tick.lean ====
section
/-! DEFINITION. TICK: the decoder state machine, the accumulator and the latch gating (spec/40_tick.md R120 to R128). -/

namespace Sys2Proof.Machine

/-- Add the table entry of the change from RAW_STATE to `cur` (R123). -/
def accumulate (cur : RawState) (s : State) : State :=
  s.setInternalPos (add32 s.internalPos (delta (lutKey s.rawState cur)))

/-- A latch event, from the INTERNAL_POS just written (R124) and the old LAST_CHANGE_TIME (R125). -/
def latchEvent (s : State) : State :=
  ((s.setExternalPos (sar32 s.internalPos (shift s.mode))).setPriorChangeTime s.lastChangeTime).setLastChangeTime s.ports.nowMs

/-- A latch event if the new raw state meets the mode's latch condition (R124). -/
def latchGate (cur : RawState) (s : State) : State := if isLatch s.mode cur then latchEvent s else s

/-- TICK (R120). -/
def execTick (s : State) : Host.Outcome State Fault Refusal :=
  let cur := pinSample s.ports
  if cur = s.rawState then .next s.noResponse
  else .next ((latchGate cur (accumulate cur s)).setRawState cur).noResponse

end Sys2Proof.Machine
end

