-- ==== Sys2Proof/Machine/Dispatch.lean ====
section
/-! DEFINITION. One arm per command (spec/30_encoding.md R97). -/

namespace Sys2Proof.Machine

def exec (i : Instr) (s : State) : Host.Outcome State Fault Refusal :=
  match i with
  | .tick => Sys2Proof.Machine.execTick s
  | .getPosition => Sys2Proof.Machine.execGetPosition s
  | .getDirection => Sys2Proof.Machine.execGetDirection s
  | .setPosition n => Sys2Proof.Machine.execSetPosition n s
  | .getMillisBetweenRotations => Sys2Proof.Machine.execGetMillisBetweenRotations s
  | .getRpm => Sys2Proof.Machine.execGetRpm s

end Sys2Proof.Machine
end

