-- ==== Sys2Proof/Machine/Step.lean ====
section
/-! DEFINITION. One step of the block (spec/30_encoding.md R97): the host's next step, a reset or a command. -/

namespace Sys2Proof.Machine

/-- One step: `rst` = 1 is a reset and the command is not decoded (R97, R223). -/
def step (s : State) : Host.Outcome State Fault Refusal :=
  match takeStep s with
  | .error r => .refused r
  | .ok s1 =>
    if s1.ports.rst then resetBlock s1.ports.cfgMode s1
    else
      match fetchCommand s1 with
      | .error r => .refused r
      | .ok i => exec i s1

/-- `s` with a table word presented as the host's next command (log entry 11). -/
def State.withFetchWord (s : State) (nbits w : Nat) : State := s.presentCommand (commandOfTable nbits w)

end Sys2Proof.Machine
end

