-- ==== Sys2Proof/Machine/Assembler.lean ====
section
/-! DEFINITION. The program syntax of spec/30_encoding.md R101 and the host steps it stands for (R100, R102). Points of
spelling that R101 leaves open are in log entry 19. -/

namespace Sys2Proof.Machine

/-- One line of a program, one step each (R101, R102). -/
inductive Line where
  /-- `RESET mode=...`; without a mode the default of R31. -/
  | reset (mode : Option LatchMode)
  | tick (a b : BitVec 1) (now : Word)
  | getPosition
  | getDirection
  | setPosition (n : Word)
  | getMillisBetweenRotations
  | getRpm (now : Word)
deriving DecidableEq, Repr

/-- The host step of a line. The line fixes the ports its step reads; `others` gives the rest (R101: "the values of the input
ports this step reads"). -/
def Line.ports (others : Ports) : Line → Ports
  | .reset m => { others with rst := true, cfgMode := modeCode (m.getD defaultMode) }
  | .tick a b now => { others with rst := false, cmd := encode .tick, pinA := a, pinB := b, nowMs := now }
  | .getPosition => { others with rst := false, cmd := encode .getPosition }
  | .getDirection => { others with rst := false, cmd := encode .getDirection }
  | .setPosition n => { others with rst := false, cmd := encode (.setPosition n) }
  | .getMillisBetweenRotations => { others with rst := false, cmd := encode .getMillisBetweenRotations }
  | .getRpm now => { others with rst := false, cmd := encode .getRpm, nowMs := now }

/-- The host will present the lines of a program, in order. -/
def State.loadProgram (s : State) (others : Ports) (program : List Line) : State :=
  { s with host := program.map (Line.ports others) }

/-- The value of a digit, in either case for hexadecimal. -/
def digitValue (base : Nat) (c : Char) : Option Nat :=
  let n := c.toNat
  let v := if 48 ≤ n ∧ n ≤ 57 then n - 48 else if 97 ≤ n ∧ n ≤ 102 then n - 87 else if 65 ≤ n ∧ n ≤ 70 then n - 55 else 16
  if v < base then some v else none

/-- The digits `cs` read after the value `acc`. -/
def digitsFrom (base acc : Nat) : List Char → Option Nat
  | [] => some acc
  | c :: cs =>
    match digitValue base c with
    | none => none
    | some d => digitsFrom base (acc * base + d) cs

/-- A numeral of at least one digit. -/
def numeral (base : Nat) (cs : List Char) : Option Nat := if cs.isEmpty then none else digitsFrom base 0 cs

/-- A 0x numeral as a 32-bit pattern (R101). -/
def hexPattern (cs : List Char) : Option Word :=
  match numeral 16 cs with
  | some v => if v < 2 ^ 32 then some (BitVec.ofNat 32 v) else none
  | none => none

/-- A u32: decimal, or 0x hexadecimal (R101). -/
def parseU32 (cs : List Char) : Option Word :=
  match cs with
  | '0' :: 'x' :: hs => hexPattern hs
  | _ =>
    match numeral 10 cs with
    | some v => if v < 2 ^ 32 then some (BitVec.ofNat 32 v) else none
    | none => none

/-- SET_POSITION's operand: a decimal integer, optionally negative, or a 0x pattern of 32 bits (R101). -/
def parseS32 (cs : List Char) : Option Word :=
  match cs with
  | '0' :: 'x' :: hs => hexPattern hs
  | '-' :: ds =>
    match numeral 10 ds with
    | some v => if v ≤ 2 ^ 31 then some (BitVec.ofInt 32 (-(v : Int))) else none
    | none => none
  | ds =>
    match numeral 10 ds with
    | some v => if v < 2 ^ 31 then some (BitVec.ofNat 32 v) else none
    | none => none

/-- A pin level. -/
def parsePin (cs : List Char) : Option (BitVec 1) :=
  if cs = ['0'] then some 0 else if cs = ['1'] then some 1 else none

/-- A mode by its name (R31, R101). -/
def parseMode (cs : List Char) : Option LatchMode :=
  if cs = "FOUR_LATCH_AT_3".toList then some .fourLatchAt3
  else if cs = "FOUR_LATCH_AT_0".toList then some .fourLatchAt0
  else if cs = "TWO_LATCH_AT_0_AND_3".toList then some .twoLatchAt0And3
  else none

/-- What follows `key` in a `key=value` word. -/
def valueOf (key : String) (word : List Char) : Option (List Char) :=
  if key.toList.isPrefixOf word then some (word.drop key.toList.length) else none

/-- The words of a text, parted by spaces and tabs; `current` holds the word begun, last character first. -/
def wordsFrom (current : List Char) : List Char → List (List Char)
  | [] => if current.isEmpty then [] else [current.reverse]
  | c :: cs =>
    if c = ' ' ∨ c = '\t' then
      if current.isEmpty then wordsFrom [] cs else current.reverse :: wordsFrom [] cs
    else wordsFrom (c :: current) cs

/-- What a line of text says. -/
inductive LineText where
  /-- Nothing but space and a comment. -/
  | blank
  | step (l : Line)
  | notALine
deriving DecidableEq, Repr

/-- A step where the line parsed. -/
def stepOrNot : Option Line → LineText
  | some l => .step l
  | none => .notALine

/-- The operands of a line, after its first word (R101). -/
def parseOperands (name : List Char) (args : List (List Char)) : Option Line :=
  if name = "RESET".toList then
    match args with
    | [] => some (.reset none)
    | [m] => do return .reset (some (← parseMode (← valueOf "mode=" m)))
    | _ => none
  else if name = "TICK".toList then
    match args with
    | [at', a, b, now] =>
      if at' = ['@'] then do
        return .tick (← parsePin (← valueOf "a=" a)) (← parsePin (← valueOf "b=" b)) (← parseU32 (← valueOf "now=" now))
      else none
    | _ => none
  else if name = "GET_POSITION".toList then if args.isEmpty then some .getPosition else none
  else if name = "GET_DIRECTION".toList then if args.isEmpty then some .getDirection else none
  else if name = "SET_POSITION".toList then
    match args with
    | [n] => do return .setPosition (← parseS32 n)
    | _ => none
  else if name = "GET_MILLIS_BETWEEN_ROTATIONS".toList then
    if args.isEmpty then some .getMillisBetweenRotations else none
  else if name = "GET_RPM".toList then
    match args with
    | [at', now] => if at' = ['@'] then do return .getRpm (← parseU32 (← valueOf "now=" now)) else none
    | _ => none
  else none

/-- A line of program text; `;` starts a comment (R101). -/
def parseLine (text : String) : LineText :=
  match wordsFrom [] (text.toList.takeWhile (fun c => c != ';')) with
  | [] => .blank
  | name :: args => stepOrNot (parseOperands name args)

end Sys2Proof.Machine
end

