-- ==== Sys2Proof/Safety.lean ====
section
/-! DEFINITION. The terms claims use: runs of the block, the refusal mark (spec/30_encoding.md R99), the premises the host owes
(spec/70_reset_and_hazards.md R253, R257, R262) and the relations between registers (spec/10_state.md R45). -/

namespace Sys2Proof.Machine

/-- `k` steps of the block from `s`, stopping at the first refusal: `Host.Core.run` of `Sys2Proof.core`. -/
def State.run : Nat → State → Host.Outcome State Fault Refusal
  | 0, s => .next s
  | k + 1, s =>
    match step s with
    | .next t => State.run k t
    | .fault f => .fault f
    | .refused r => .refused r

/-- The block runs the host steps `steps`, in order, from `s` (R78); what `s.host` held is not part of the run. -/
def State.runSteps (s : State) (steps : List Ports) : Host.Outcome State Fault Refusal :=
  State.run steps.length { s with host := steps }

/-- Commands execute: a reset has happened (R251) and the configuration is one the spec admits (R196). -/
abbrev State.Ready (s : State) : Prop := s.constructed = true ∧ 1 ≤ s.cfg.latchesPerRev

/-- A step the host may present: a defined mode at a reset, a defined command code otherwise (R262). -/
def Ports.legal (p : Ports) : Bool := if p.rst then modeCodeWellFormed p.cfgMode else opWellFormed (opField p.cmd)

/-- A step that presents the command with code `op`, whatever its arg. -/
abbrev Ports.Presents (p : Ports) (op : BitVec 3) : Prop := p.rst = false ∧ opField p.cmd = op

/-- A TICK step that samples the raw state `cur`. -/
abbrev Ports.TickAt (p : Ports) (cur : RawState) : Prop := p.Presents 0b000 ∧ pinSample p = cur

/-- TICK steps that sample the raw states `curs`, in order, whatever their clocks. -/
def TicksAt : List Ports → List RawState → Prop
  | [], [] => True
  | p :: ps, cur :: curs => p.TickAt cur ∧ TicksAt ps curs
  | _, _ => False

/-- The next raw state of the sequence whose steps add +1 (R46 (e)). -/
def forwardOf (raw : RawState) : RawState :=
  match raw with
  | 0#2 => 2
  | 2#2 => 3
  | 3#2 => 1
  | _ => 0

/-- The next raw state of the sequence whose steps add -1 (R46 (f)). -/
def backwardOf (raw : RawState) : RawState :=
  match raw with
  | 0#2 => 1
  | 1#2 => 3
  | 3#2 => 2
  | _ => 0

/-- The raw states after 1, 2, ..., k single-bit steps the same way. -/
def travel (next : RawState → RawState) : Nat → RawState → List RawState
  | 0, _ => []
  | k + 1, raw => next raw :: travel next k (next raw)

/-- The net count of TICKs that sample `curs` from the raw state `raw`: the sum of the table's entries (R123). -/
def netDelta : RawState → List RawState → Int
  | _, [] => 0
  | raw, cur :: curs => (lut (lutKey raw cur)).toInt + netDelta cur curs

/-- EXTERNAL_POS is INTERNAL_POS shifted right (R45 (e)). -/
abbrev State.InSync (s : State) : Prop := s.externalPos = sar32 s.internalPos (shift s.mode)

/-- The least significant bit of INTERNAL_POS is the parity of the raw state's two bits. Every entry of the table keeps it. -/
abbrev State.PhaseAgrees (s : State) : Prop := s.internalPos.getLsbD 0 = (s.rawState.getLsbD 0 ^^ s.rawState.getLsbD 1)

/-- SET_POSITION's operand survives the shift (R154). -/
abbrev InRange (m : LatchMode) (n : Word) : Prop := -2 ^ (31 - shift m) ≤ n.toInt ∧ n.toInt ≤ 2 ^ (31 - shift m) - 1

/-- What the clock port reads at a true time of `t` milliseconds (R257). -/
def clockReading (t : Nat) : Word := BitVec.ofNat 32 t

/-- A run that goes on after a refused step carries the refusal mark: the first reason (R99). -/
structure MarkedState where
  state : State
  mark : Option Refusal
deriving DecidableEq, Repr

/-- A refused step changes no state and gives no response (R99); the host's step is spent. -/
def State.refusedStep (s : State) : State := { s with rsp := none, host := s.host.tail }

/-- One step of a marked run: the mark, once set, stays (R99). Where the host presents nothing, no step happens (R97). -/
def MarkedState.step (m : MarkedState) : MarkedState :=
  match Sys2Proof.Machine.step m.state with
  | .next t => { m with state := t }
  | .fault f => nomatch f
  | .refused .noStepPresented => m
  | .refused r => { state := m.state.refusedStep, mark := some (m.mark.getD r) }

/-- `k` steps of a marked run. -/
def MarkedState.run : Nat → MarkedState → MarkedState
  | 0, m => m
  | k + 1, m => MarkedState.run k m.step

end Sys2Proof.Machine
end

