-- ==== Sys2Proof/Certificates/Slice0/Obligations.lean ====
section
/-! DEFINITION. The statements for the provers. Each docstring names the rule it formalises. -/

open Sys2Proof Sys2Proof.Machine

/-! ### Reset -/

/-- The summary table of 10_state.md section 3: the register values right after a reset whose host gives no mode. That the
timestamps start at 0 is the spec's decision D11 (log entry 14); that this state follows a reset without a mode is log entry 9. -/
def Obligations.StateAfterDefaultReset : Prop :=
  State.reset.mode = .fourLatchAt0 ∧ State.reset.rawState = 3 ∧ State.reset.internalPos = 0 ∧ State.reset.externalPos = 0 ∧
  State.reset.prevExternalPos = 0 ∧ State.reset.lastChangeTime = 0 ∧ State.reset.priorChangeTime = 0 ∧ State.reset.rsp = none

/-- The reset pseudocode of 70_reset_and_hazards.md section 1: a step with `rst` = 1, whatever the command, the pins and the
clock beside it and whatever the state before it (the command is not decoded: decision D23). The codes of the modes and the
zero timestamps are the spec's decisions D6 and D11. The configuration is one the spec admits (log entries 3, 20). -/
def Obligations.ResetStepConstructsTheBlock : Prop :=
  ∀ (s : State) (p : Ports) (later : List Ports), s.host = p :: later → p.rst = true → 1 ≤ s.cfg.latchesPerRev →
    (p.cfgMode = 0b00#2 → step s = .refused .reservedMode) ∧
    (∀ m : LatchMode, p.cfgMode = modeCode m →
      step s = .next
        { cfg := s.cfg, constructed := true, mode := m, rawState := 3, internalPos := 0, externalPos := 0,
          prevExternalPos := 0, lastChangeTime := 0, priorChangeTime := 0, ports := p, rsp := none, host := later })

/-- The MODE codes of 10_state.md section 2 (the spec's decision D6), and the mode of a reset line that names none. -/
def Obligations.ModeCodesAreTheTable : Prop :=
  modeOfCode 0b00#2 = none ∧ modeOfCode 0b01#2 = some .fourLatchAt3 ∧ modeOfCode 0b10#2 = some .fourLatchAt0 ∧
  modeOfCode 0b11#2 = some .twoLatchAt0And3 ∧ (∀ m : LatchMode, modeOfCode (modeCode m) = some m) ∧
  (∀ others : Ports, (Line.ports others (.reset none)).cfgMode = 0b10#2)

/-- "No state survives a reset, since reset rewrites every element" (60_exceptions.md section 3): two blocks of one
configuration that get the same reset and the same steps after it end alike. -/
def Obligations.ResetErasesThePast : Prop :=
  ∀ (s u : State) (p : Ports) (steps : List Ports), s.cfg = u.cfg → p.rst = true →
    s.runSteps (p :: steps) = u.runSteps (p :: steps)

/-! ### Encoding and dispatch -/

/-- 30_encoding.md sections 2 and 3 (the spec's decisions D3, D4, D14): the op field alone selects the command, and `arg` is
read by SET_POSITION alone. -/
def Obligations.DecodeByOpField : Prop :=
  ∀ w : CommandWord,
    (w.extractLsb' 0 3 = 0b000#3 → decode w = .ok .tick) ∧
    (w.extractLsb' 0 3 = 0b001#3 → decode w = .ok .getPosition) ∧
    (w.extractLsb' 0 3 = 0b010#3 → decode w = .ok .getDirection) ∧
    (w.extractLsb' 0 3 = 0b011#3 → decode w = .ok (.setPosition (w.extractLsb' 3 32))) ∧
    (w.extractLsb' 0 3 = 0b100#3 → decode w = .ok .getMillisBetweenRotations) ∧
    (w.extractLsb' 0 3 = 0b101#3 → decode w = .ok .getRpm) ∧
    (w.extractLsb' 0 3 = 0b110#3 → decode w = .error (.reservedCommand 0b110#3)) ∧
    (w.extractLsb' 0 3 = 0b111#3 → decode w = .error (.reservedCommand 0b111#3))

/-- Decode and encode agree: every command comes back with its operand, and a word that decodes is its command's own word
exactly when its `arg` is one the command reads or is 0. -/
def Obligations.DecodeEncodeAgree : Prop :=
  (∀ i : Instr, i.wellFormed = true → decode (encode i) = .ok i) ∧
  (∀ (w : CommandWord) (i : Instr), decode w = .ok i →
    (encode i).extractLsb' 0 3 = w.extractLsb' 0 3 ∧
    (encode i = w ↔ (w.extractLsb' 0 3 = 0b011#3 ∨ w.extractLsb' 3 32 = 0#32)))

/-- The words the assembler produces (30_encoding.md section 4, derived there from the encoding). -/
def Obligations.AssemblerWords : Prop :=
  encode .tick = 0x000000000#35 ∧ encode .getPosition = 0x000000001#35 ∧ encode .getDirection = 0x000000002#35 ∧
  (∀ n : Word, encode (.setPosition n) = (n.zeroExtend 35 <<< 3) ||| 0x3#35) ∧
  encode .getMillisBetweenRotations = 0x000000004#35 ∧ encode .getRpm = 0x000000005#35

/-- Words written out bit by bit from the format and the opcode map of 30_encoding.md decode to the commands they stand for. -/
def Obligations.WrittenWordsDecode : Prop :=
  decode 0b00000000000000000000000000000000000#35 = .ok .tick ∧
  decode 0b11111111111111111111111111111111001#35 = .ok .getPosition ∧
  decode 0b00000000000000000000000000000000010#35 = .ok .getDirection ∧
  decode 0b00000000000000000000000000000101011#35 = .ok (.setPosition 5) ∧
  decode 0b11111111111111111111111111111111011#35 = .ok (.setPosition 0xFFFFFFFF) ∧
  decode 0b00000000000000000000000000000000100#35 = .ok .getMillisBetweenRotations ∧
  decode 0b00000000000000000000000000000000101#35 = .ok .getRpm

/-- 30_encoding.md section 3, the step: a command step of a block that has been reset (log entry 7) runs the decoded command, on
the ports as the step samples them, with the host's later steps still pending (log entry 1). -/
def Obligations.StepRunsTheDecodedCommand : Prop :=
  ∀ (s : State) (p : Ports) (later : List Ports) (i : Instr), s.host = p :: later → s.Ready → p.rst = false →
    decode p.cmd = .ok i → step s = exec i { s with ports := p, host := later }

/-- The model's convention for a word placed from outside (log entry 11): it is the command of the very next step. -/
def Obligations.FetchWordRunsTheInstruction : Prop :=
  ∀ (s : State) (i : Instr), s.Ready →
    (∀ (p : Ports) (later : List Ports), s.host = p :: later →
      step (s.withFetchWord 40 (encode i).toNat) = exec i { s with ports := { p with rst := false, cmd := encode i }, host := later }) ∧
    (s.host = [] →
      step (s.withFetchWord 40 (encode i).toNat) = exec i { s with ports := { s.ports with rst := false, cmd := encode i } })

/-- 30_encoding.md section 3 (the spec's decision D4): the two reserved codes are refused by name, whatever `arg`, pins and
clock; every other word is a command. -/
def Obligations.ReservedCommandsRefused : Prop :=
  (∀ (s : State) (p : Ports) (later : List Ports), s.host = p :: later → s.Ready → p.rst = false →
    (opField p.cmd = 0b110#3 → step s = .refused (.reservedCommand 0b110#3)) ∧
    (opField p.cmd = 0b111#3 → step s = .refused (.reservedCommand 0b111#3))) ∧
  (∀ w : CommandWord, opField w ≠ 0b110#3 → opField w ≠ 0b111#3 → ∃ i : Instr, decode w = .ok i ∧ i.wellFormed = true)

/-- 70_reset_and_hazards.md section 1 and item I9 (the spec's decision D15): no command may come before the first reset. That
the model refuses it by a flag is log entry 7. -/
def Obligations.CommandBeforeResetRefused : Prop :=
  ∀ (s : State) (p : Ports) (later : List Ports), s.host = p :: later → p.rst = false → s.constructed = false →
    1 ≤ s.cfg.latchesPerRev → step s = .refused .commandBeforeReset

/-- 43_speed.md section 2 (the spec's decision D10): LATCHES_PER_REV = 0 is refused. That the model refuses every step of such a
block is log entry 3. -/
def Obligations.ZeroLatchesPerRevRefused : Prop :=
  ∀ (s : State) (p : Ports) (later : List Ports), s.host = p :: later → s.cfg.latchesPerRev = 0 →
    step s = .refused .reservedConfiguration

/-- 00_scope.md section 7: a step stops for these reasons alone, and never faults. The empty `host` is the model's own case (log
entry 2), and so are the configuration and the first reset as tests of a step (log entries 3 and 7). -/
def Obligations.StepStopsOnlyWhereRefused : Prop :=
  ∀ s : State,
    (∀ f : Fault, step s ≠ .fault f) ∧
    (∀ r : Refusal, step s = .refused r →
      s.host = [] ∨ s.cfg.latchesPerRev = 0 ∨
      ∃ (p : Ports) (later : List Ports), s.host = p :: later ∧
        ((p.rst = true ∧ p.cfgMode = 0b00#2) ∨ (p.rst = false ∧ s.constructed = false) ∨
         (p.rst = false ∧ (opField p.cmd = 0b110#3 ∨ opField p.cmd = 0b111#3))))

/-- 30_encoding.md section 3, refusal (the spec's decision D4): a refused step changes no state, gives no response, and its mark
stays for the rest of the run. That the host's step is spent, and that the first reason is kept, is log entry 4. -/
def Obligations.RefusalMarkStays : Prop :=
  ∀ (m : MarkedState) (r : Refusal),
    (step m.state = .refused r → r ≠ .noStepPresented → m.mark = none →
      m.step = { state := { m.state with rsp := none, host := m.state.host.tail }, mark := some r }) ∧
    (m.mark = some r → ∀ k : Nat, (MarkedState.run k m).mark = some r)

/-! ### The table and the functions of MODE -/

/-- R30: the sixteen entries, and their sign extension. -/
def Obligations.TransitionTableEntries : Prop :=
  (List.range 16).map (fun k => (lut (BitVec.ofNat 4 k)).toInt) = [0, -1, 1, 0, 1, 0, 0, -1, -1, 0, 0, 1, 0, 1, -1, 0] ∧
  (∀ k : LutKey, (delta k).toInt = (lut k).toInt)

/-- R32: `shift` and `isLatch`. -/
def Obligations.ModeFunctionsAreTheTable : Prop :=
  shift .fourLatchAt3 = 2 ∧ shift .fourLatchAt0 = 2 ∧ shift .twoLatchAt0And3 = 1 ∧
  (∀ raw : RawState, isLatch .fourLatchAt3 raw = true ↔ raw = 3) ∧
  (∀ raw : RawState, isLatch .fourLatchAt0 raw = true ↔ raw = 0) ∧
  (∀ raw : RawState, isLatch .twoLatchAt0And3 raw = true ↔ raw = 0 ∨ raw = 3)

/-- 10_state.md section 6, the properties (a) to (f) of the table, which the spec derives from its rows. -/
def Obligations.TransitionTableProperties : Prop :=
  (∀ p c : RawState, (p ^^^ c = 1 ∨ p ^^^ c = 2) → lut (lutKey p c) = 1 ∨ lut (lutKey p c) = -1) ∧
  (∀ p c : RawState, p ^^^ c = 3 → lut (lutKey p c) = 0) ∧
  (∀ p : RawState, lut (lutKey p p) = 0) ∧
  (∀ p c : RawState, lut (lutKey p c) = -lut (lutKey c p)) ∧
  (lut (lutKey 0 2) = 1 ∧ lut (lutKey 2 3) = 1 ∧ lut (lutKey 3 1) = 1 ∧ lut (lutKey 1 0) = 1) ∧
  (lut (lutKey 0 1) = -1 ∧ lut (lutKey 1 3) = -1 ∧ lut (lutKey 3 2) = -1 ∧ lut (lutKey 2 0) = -1)

/-! ### TICK -/

/-- R122: an unchanged sample writes no state element, and there is no response. -/
def Obligations.TickUnchangedSampleWritesNothing : Prop :=
  ∀ s : State, s.ports.pinB ++ s.ports.pinA = s.rawState → exec .tick s = .next { s with rsp := none }

/-- R93, R121, R123, R124, R125, R126: a changed sample adds the table entry and moves RAW_STATE; if the new raw state meets the
latch condition, EXTERNAL_POS and the timestamps follow; nothing else changes. (No response: the spec's decision D13.) -/
def Obligations.TickCountsAndLatches : Prop :=
  ∀ (s : State) (cur : RawState) (internal : Word), s.ports.pinB ++ s.ports.pinA = cur → cur ≠ s.rawState →
    internal = s.internalPos + (lut (s.rawState ++ cur)).signExtend 32 →
    (isLatch s.mode cur = false →
      exec .tick s = .next { s with internalPos := internal, rawState := cur, rsp := none }) ∧
    (isLatch s.mode cur = true →
      exec .tick s = .next
        { s with
          internalPos := internal
          externalPos := internal.sshiftRight (shift s.mode)
          priorChangeTime := s.lastChangeTime
          lastChangeTime := s.ports.nowMs
          rawState := cur
          rsp := none })

/-- 40_tick.md section 2 over a run: TICKs add up the table's entries along the raw states they sample, modulo 2^32, and touch
neither the snapshot nor MODE. -/
def Obligations.TicksAccumulateTheTable : Prop :=
  ∀ (s : State) (steps : List Ports) (curs : List RawState), s.Ready → TicksAt steps curs →
    ∃ t : State, s.runSteps steps = .next t ∧
      t.internalPos = s.internalPos + BitVec.ofInt 32 (netDelta s.rawState curs) ∧
      t.rawState = curs.getLastD s.rawState ∧ t.prevExternalPos = s.prevExternalPos ∧ t.mode = s.mode ∧ t.cfg = s.cfg

/-- One detent moves the position by one (40_tick.md section 3, which the spec derives). RAW_STATE is at a latch state; `2^shift`
single-bit steps the same way follow, and the count does not wrap. Where the last latch event left INTERNAL_POS as it stands, so
that EXTERNAL_POS is in sync with it, EXTERNAL_POS moves by exactly one. -/
def Obligations.OneDetentMovesThePositionByOne : Prop :=
  ∀ (s : State) (steps : List Ports) (next : RawState → RawState) (d : Int), s.Ready →
    (next = forwardOf ∧ d = 1 ∨ next = backwardOf ∧ d = -1) → isLatch s.mode s.rawState = true →
    -2 ^ 31 ≤ s.internalPos.toInt + d * 2 ^ shift s.mode → s.internalPos.toInt + d * 2 ^ shift s.mode < 2 ^ 31 →
    TicksAt steps (travel next (2 ^ shift s.mode) s.rawState) →
    ∃ t : State, s.runSteps steps = .next t ∧ isLatch t.mode t.rawState = true ∧
      t.internalPos.toInt = s.internalPos.toInt + d * 2 ^ shift s.mode ∧
      t.externalPos.toInt = s.internalPos.toInt / 2 ^ shift s.mode + d ∧
      (s.InSync → t.externalPos.toInt = s.externalPos.toInt + d)

/-- The first latch event after reset, in each mode and each direction (the table in 40_tick.md section 3, which the spec
derives). -/
def Obligations.FirstDetentAfterReset : Prop :=
  ∀ (s : State) (m : LatchMode) (curs : List RawState) (internal external : Int) (steps : List Ports),
    1 ≤ s.cfg.latchesPerRev →
    (m, curs, internal, external) ∈
      [ (LatchMode.fourLatchAt3, [1, 0, 2, 3], 4, 1), (LatchMode.fourLatchAt3, [2, 0, 1, 3], -4, -1),
        (LatchMode.fourLatchAt0, [1, 0], 2, 0), (LatchMode.fourLatchAt0, [2, 0], -2, -1),
        (LatchMode.twoLatchAt0And3, [1, 0], 2, 1), (LatchMode.twoLatchAt0And3, [2, 0], -2, -1)] →
    TicksAt steps curs →
    ∃ t : State, (s.construct m).runSteps steps = .next t ∧ isLatch m t.rawState = true ∧
      t.internalPos.toInt = internal ∧ t.externalPos.toInt = external

/-- The first TICK after reset compares the pins with raw state 3 (70_reset_and_hazards.md section 3, which the spec derives). That
a timestamp is 0 here rests on the reset values of 10_state.md section 3, the spec's decision D11 (log entry 14). -/
def Obligations.FirstTickAfterReset : Prop :=
  ∀ (s : State) (m : LatchMode) (p : Ports) (cur : RawState), 1 ≤ s.cfg.latchesPerRev → p.TickAt cur →
    ∃ t : State, (s.construct m).runSteps [p] = .next t ∧ t.rawState = cur ∧ t.externalPos = 0 ∧
      (cur = 0 → t.internalPos = 0 ∧ t.priorChangeTime = 0 ∧
        t.lastChangeTime = if m = .fourLatchAt3 then 0 else p.nowMs) ∧
      (cur = 1 → t.internalPos = 1 ∧ t.lastChangeTime = 0 ∧ t.priorChangeTime = 0) ∧
      (cur = 2 → t.internalPos = -1 ∧ t.lastChangeTime = 0 ∧ t.priorChangeTime = 0) ∧
      (cur = 3 → t.internalPos = 0 ∧ t.lastChangeTime = 0 ∧ t.priorChangeTime = 0)

/-- Contact bounce (40_tick.md section 3, which the spec derives): a bounce to `c` and back leaves the count, shifts the
timestamps once per arrival at a latch state, and leaves EXTERNAL_POS where the block was latched. -/
def Obligations.BounceCancelsButLatches : Prop :=
  ∀ (s : State) (c : RawState) (out back : Ports), s.Ready → c ≠ s.rawState → out.TickAt c → back.TickAt s.rawState →
    ∃ t : State, s.runSteps [out, back] = .next t ∧ t.internalPos = s.internalPos ∧ t.rawState = s.rawState ∧
      (isLatch s.mode s.rawState = true → s.InSync → t.externalPos = s.externalPos) ∧
      (t.priorChangeTime, t.lastChangeTime) =
        (match isLatch s.mode c, isLatch s.mode s.rawState with
          | true, true => (out.nowMs, back.nowMs)
          | true, false => (s.lastChangeTime, out.nowMs)
          | false, true => (s.lastChangeTime, back.nowMs)
          | false, false => (s.priorChangeTime, s.lastChangeTime))

/-- Missed samples (40_tick.md section 3, which the spec derives): what one TICK counts when the pins made 1, 2, 3 or 4
single-bit steps the same way since the sample before. -/
def Obligations.MissedSamplesMiscount : Prop :=
  ∀ (s : State) (next : RawState → RawState) (d : Word), (next = forwardOf ∧ d = 1 ∨ next = backwardOf ∧ d = -1) →
    (pinSample s.ports = next s.rawState → ∃ t, exec .tick s = .next t ∧ t.internalPos = s.internalPos + d) ∧
    (pinSample s.ports = next (next s.rawState) → ∃ t, exec .tick s = .next t ∧ t.internalPos = s.internalPos) ∧
    (pinSample s.ports = next (next (next s.rawState)) → ∃ t, exec .tick s = .next t ∧ t.internalPos = s.internalPos - d) ∧
    (pinSample s.ports = next (next (next (next s.rawState))) →
      ∃ t, exec .tick s = .next t ∧ t.internalPos = s.internalPos)

/-- The wrap (40_tick.md section 3 and 42_direction.md, which the spec derives): INTERNAL_POS wraps at the s32 limits, a latch
event there shifts the wrapped value, and GET_DIRECTION then reports the opposite sense. -/
def Obligations.WrapAtTheLimits : Prop :=
  ∀ s : State, pinSample s.ports ≠ s.rawState →
    (s.internalPos = 0x7FFFFFFF → lut (lutKey s.rawState (pinSample s.ports)) = 1 →
      ∃ t : State, exec .tick s = .next t ∧ t.internalPos = 0x80000000 ∧
        (isLatch s.mode (pinSample s.ports) = true →
          t.externalPos = (0x80000000#32).sshiftRight (shift s.mode) ∧
          (shift s.mode = 2 → t.externalPos = 0xE0000000 ∧
            (s.prevExternalPos = 0x1FFFFFFF → ∃ u : State, exec .getDirection t = .next u ∧ u.rsp = some ⟨0xFFFFFFFF, false⟩)))) ∧
    (s.internalPos = 0x80000000 → lut (lutKey s.rawState (pinSample s.ports)) = -1 →
      ∃ t : State, exec .tick s = .next t ∧ t.internalPos = 0x7FFFFFFF ∧
        (isLatch s.mode (pinSample s.ports) = true →
          t.externalPos = (0x7FFFFFFF#32).sshiftRight (shift s.mode) ∧
          (shift s.mode = 2 → t.externalPos = 0x1FFFFFFF ∧
            (s.prevExternalPos = 0xE0000000 → ∃ u : State, exec .getDirection t = .next u ∧ u.rsp = some ⟨1, false⟩))))

/-! ### Position -/

/-- R150: GET_POSITION, its encoding and its effect: it responds EXTERNAL_POS and changes nothing else. -/
def Obligations.GetPositionRespondsExternalPos : Prop :=
  (∀ w : CommandWord, w.extractLsb' 0 3 = 0b001#3 → decode w = .ok .getPosition) ∧
  ∀ s : State, exec .getPosition s = .next { s with rsp := some { data := s.externalPos, undef := false } }

/-- R151, R152, R153: SET_POSITION, its encoding and its effect: it keeps the low `shift` bits of INTERNAL_POS under `n` shifted
left, sets both positions to `n`, and writes neither a timestamp nor RAW_STATE. -/
def Obligations.SetPositionRewritesThePositions : Prop :=
  (∀ w : CommandWord, w.extractLsb' 0 3 = 0b011#3 → decode w = .ok (.setPosition (w.extractLsb' 3 32))) ∧
  ∀ (s : State) (n mask : Word) (sh : Nat),
    (s.mode = .fourLatchAt3 ∨ s.mode = .fourLatchAt0) ∧ sh = 2 ∧ mask = 0x3 ∨ s.mode = .twoLatchAt0And3 ∧ sh = 1 ∧ mask = 0x1 →
    exec (.setPosition n) s = .next
      { s with
        internalPos := (n <<< sh) ||| (s.internalPos &&& mask)
        externalPos := n
        prevExternalPos := n
        rsp := none }

/-- 41_position.md section 2: the bits of INTERNAL_POS after SET_POSITION, one by one. -/
def Obligations.SetPositionBits : Prop :=
  ∀ (s : State) (n : Word), ∃ t : State, exec (.setPosition n) s = .next t ∧
    (∀ j : Nat, j < shift s.mode → t.internalPos.getLsbD j = s.internalPos.getLsbD j) ∧
    (∀ j : Nat, shift s.mode ≤ j → j < 32 → t.internalPos.getLsbD j = n.getLsbD (j - shift s.mode))

/-- 41_position.md section 2, operand out of range (the spec's decision D12, log entry 15): EXTERNAL_POS agrees with the shifted
INTERNAL_POS after SET_POSITION exactly for an operand in range. -/
def Obligations.SetPositionSyncsExactlyInRange : Prop :=
  ∀ (s : State) (n : Word), ∃ t : State, exec (.setPosition n) s = .next t ∧ t.externalPos = n ∧
    (t.InSync ↔ InRange s.mode n)

/-- Resumption from the kept phase (41_position.md section 2, which the spec derives): SET_POSITION moves every later latched
position by the same offset. The same TICKs run from the state it leaves and from the state before it; where the last TICK is a
latch event and the moved position is in range, it is the other run's position plus the offset. -/
def Obligations.SetPositionOffsetsLaterPositions : Prop :=
  ∀ (s u t : State) (n : Word) (steps : List Ports) (curs : List RawState) (cur : RawState) (offset : Int), s.Ready →
    exec (.setPosition n) s = .next u → offset = n.toInt - (s.internalPos.sshiftRight (shift s.mode)).toInt →
    TicksAt steps (curs ++ [cur]) → curs.getLastD s.rawState ≠ cur → isLatch s.mode cur = true →
    s.runSteps steps = .next t → -2 ^ (31 - shift s.mode) ≤ t.externalPos.toInt + offset →
    t.externalPos.toInt + offset < 2 ^ (31 - shift s.mode) →
    ∃ v : State, u.runSteps steps = .next v ∧ v.externalPos.toInt = t.externalPos.toInt + offset ∧
      subLatchPhase v.mode v.internalPos = subLatchPhase t.mode t.internalPos

/-! ### Direction -/

/-- 42_direction.md, GET_DIRECTION, its encoding and its effect: it responds the comparison and consumes it. The codes and the
signed comparison are the spec's decision D7. -/
def Obligations.GetDirectionReportsAndConsumes : Prop :=
  (∀ w : CommandWord, w.extractLsb' 0 3 = 0b010#3 → decode w = .ok .getDirection) ∧
  ∀ s : State,
    exec .getDirection s = .next
      { s with
        prevExternalPos := s.externalPos
        rsp := some
          { data :=
              if s.prevExternalPos.toInt < s.externalPos.toInt then 0x00000001
              else if s.externalPos.toInt < s.prevExternalPos.toInt then 0xFFFFFFFF
              else 0x00000000
            undef := false } }

/-- R77: GET_DIRECTION consumes, so a second one reports no rotation; the other queries change no state, and GET_POSITION and
GET_MILLIS_BETWEEN_ROTATIONS repeat; GET_RPM repeated may differ with the clock; an unchanged sample changes nothing. -/
def Obligations.SideEffectsOfReads : Prop :=
  (∀ s : State, ∃ t u : State, exec .getDirection s = .next t ∧ exec .getDirection t = .next u ∧
    u.rsp = some { data := 0, undef := false } ∧ u.externalPos = s.externalPos ∧ u.prevExternalPos = s.externalPos) ∧
  (∀ (i : Instr) (s t : State), i = .getPosition ∨ i = .getMillisBetweenRotations ∨ i = .getRpm → exec i s = .next t →
    t = { s with rsp := t.rsp } ∧ (i ≠ .getRpm → exec i t = .next t)) ∧
  (∃ (s t u : State) (later : Word), exec .getRpm s = .next t ∧
    exec .getRpm { t with ports := { t.ports with nowMs := later } } = .next u ∧ t.rsp ≠ u.rsp) ∧
  (∀ s t : State, pinSample s.ports = s.rawState → exec .tick s = .next t → t = { s with rsp := none })

/-- 42_direction.md, what "since the previous call" means (the spec derives it): after the snapshot was written (by GET_DIRECTION,
SET_POSITION or a reset, each of which leaves it equal to EXTERNAL_POS) and any legal commands but those, GET_DIRECTION reports
the sign of the net change of EXTERNAL_POS. -/
def Obligations.DirectionIsNetChangeSinceSnapshot : Prop :=
  (∀ s t : State, exec .getDirection s = .next t → t.prevExternalPos = t.externalPos) ∧
  (∀ (s t : State) (n : Word), exec (.setPosition n) s = .next t → t.prevExternalPos = t.externalPos) ∧
  (∀ (s : State) (m : LatchMode), (s.construct m).prevExternalPos = (s.construct m).externalPos) ∧
  (∀ (s : State) (steps : List Ports), s.Ready → s.prevExternalPos = s.externalPos →
    (∀ p ∈ steps, p.legal = true ∧ p.rst = false ∧ opField p.cmd ≠ 0b010#3 ∧ opField p.cmd ≠ 0b011#3) →
    ∃ t u : State, s.runSteps steps = .next t ∧ exec .getDirection t = .next u ∧
      u.rsp = some { data := BitVec.ofInt 32 (t.externalPos.toInt - s.externalPos.toInt).sign, undef := false })

/-! ### Speed -/

/-- R190: GET_MILLIS_BETWEEN_ROTATIONS, its encoding and its effect: it responds LAST - PRIOR modulo 2^32 and changes nothing
else. -/
def Obligations.GetMillisRespondsTheInterval : Prop :=
  (∀ w : CommandWord, w.extractLsb' 0 3 = 0b100#3 → decode w = .ok .getMillisBetweenRotations) ∧
  ∀ s : State, exec .getMillisBetweenRotations s =
    .next { s with rsp := some { data := s.lastChangeTime - s.priorChangeTime, undef := false } }

/-- Clock wrap (43_speed.md section 1, which the spec derives): an interval below 2^32 ms is reported as its true length, though
the clock wrapped in it. -/
def Obligations.IntervalSurvivesClockWrap : Prop :=
  ∀ (s : State) (t0 t1 : Nat), s.priorChangeTime = clockReading t0 → s.lastChangeTime = clockReading t1 → t0 ≤ t1 →
    t1 - t0 < 2 ^ 32 →
    ∃ (t : State) (r : Response), exec .getMillisBetweenRotations s = .next t ∧ t.rsp = some r ∧ r.undef = false ∧
      r.data.toNat = t1 - t0

/-- R192, R193: GET_RPM, its encoding and its effect, with its intervals and its quotient as exact integers; nothing but the
response changes. The configuration is one the spec admits. -/
def Obligations.GetRpmRespondsTheQuotient : Prop :=
  (∀ w : CommandWord, w.extractLsb' 0 3 = 0b101#3 → decode w = .ok .getRpm) ∧
  ∀ (s : State) (tB tS t : Nat), 1 ≤ s.cfg.latchesPerRev →
    tB = (s.lastChangeTime.toNat + (2 ^ 32 - s.priorChangeTime.toNat)) % 2 ^ 32 →
    tS = (s.ports.nowMs.toNat + (2 ^ 32 - s.lastChangeTime.toNat)) % 2 ^ 32 → t = max tB tS →
    exec .getRpm s = .next
      { s with
        rsp := some
          (if t = 0 then { data := s.cfg.rpmSentinel, undef := true }
           else { data := BitVec.ofNat 32 (60000 / (t * s.cfg.latchesPerRev)), undef := false }) }

/-- Zero interval (43_speed.md section 2; the sentinel and its mark are the spec's decision D9): the sentinel is given exactly when
LAST = PRIOR = `now_ms`. -/
def Obligations.SentinelExactlyAtZeroInterval : Prop :=
  ∀ s : State, 1 ≤ s.cfg.latchesPerRev →
    ∃ (t : State) (r : Response), exec .getRpm s = .next t ∧ t.rsp = some r ∧
      (r.undef = true ↔ s.lastChangeTime = s.priorChangeTime ∧ s.ports.nowMs = s.lastChangeTime) ∧
      (r.undef = true → r.data = s.cfg.rpmSentinel)

/-- R194: the time step is the larger interval, so as the time since the last latch event grows the estimate does not rise, and
it is 0 once that time is long enough; for LATCHES_PER_REV = 20 that is more than 3000 ms. -/
def Obligations.StaleSpeedFallsToZero : Prop :=
  ∀ s : State, 1 ≤ s.cfg.latchesPerRev →
    (∀ (later : Word) (t u : State) (q r : Response), (s.ports.nowMs - s.lastChangeTime).toNat ≤ (later - s.lastChangeTime).toNat →
      exec .getRpm s = .next t → exec .getRpm { s with ports := { s.ports with nowMs := later } } = .next u →
      t.rsp = some q → u.rsp = some r → q.undef = false → r.undef = false ∧ r.data.toNat ≤ q.data.toNat) ∧
    (60000 < (s.ports.nowMs - s.lastChangeTime).toNat * s.cfg.latchesPerRev →
      exec .getRpm s = .next { s with rsp := some { data := 0, undef := false } }) ∧
    (s.cfg.latchesPerRev = 20 → 3000 < (s.ports.nowMs - s.lastChangeTime).toNat →
      exec .getRpm s = .next { s with rsp := some { data := 0, undef := false } })

/-- 43_speed.md section 2, corner case (5) of GET_RPM: the largest result. No response with a clear undefined bit is above it, and
under every admitted configuration a block that has been reset answers it where the larger interval is 1 ms. -/
def Obligations.RpmIsBounded : Prop :=
  (∀ s : State, 1 ≤ s.cfg.latchesPerRev →
    ∃ (t : State) (r : Response), exec .getRpm s = .next t ∧ t.rsp = some r ∧
      (r.undef = false → r.data.toNat ≤ 60000 / s.cfg.latchesPerRev)) ∧
  (∀ cfg : Config, 1 ≤ cfg.latchesPerRev →
    ∃ (s t : State) (r : Response), s.cfg = cfg ∧ s.Ready ∧ exec .getRpm s = .next t ∧ t.rsp = some r ∧ r.undef = false ∧
      r.data.toNat = 60000 / cfg.latchesPerRev)

/-- Agreement with floating point (43_speed.md section 2, which the spec derives from rounding facts it marks as general
knowledge; they are the hypotheses here). `d` is the product as a float, exact below 2^24 and within 2^-24 of it above; `q` is the
rounded quotient, exact where the quotient is an integer; the response is `q` truncated. -/
def Obligations.RpmAgreesWithFloatingPoint : Prop :=
  ∀ (s : State) (product : Nat) (d q : ℚ), 1 ≤ s.cfg.latchesPerRev →
    product = (rpmInterval s).toNat * s.cfg.latchesPerRev → 1 ≤ product → product < 2 ^ 32 →
    (product < 2 ^ 24 → d = product) → |d - product| ≤ product / 2 ^ 24 →
    |q - 60000 / d| ≤ 60000 / d / 2 ^ 24 → (∀ k : ℤ, 60000 / d = k → q = k) →
    ∃ (t : State) (r : Response), exec .getRpm s = .next t ∧ t.rsp = some r ∧ r.undef = false ∧ (r.data.toNat : ℤ) = ⌊q⌋

/-- Non-monotonic clock (43_speed.md section 2, which the spec derives): a clock that went backwards by at most 2^31 gives 0. -/
def Obligations.BackwardClockGivesZero : Prop :=
  ∀ s : State, 1 ≤ s.cfg.latchesPerRev → s.ports.nowMs.toNat < s.lastChangeTime.toNat →
    s.lastChangeTime.toNat - s.ports.nowMs.toNat ≤ 2 ^ 31 →
    2 ^ 31 ≤ (s.ports.nowMs - s.lastChangeTime).toNat ∧
    exec .getRpm s = .next { s with rsp := some { data := 0, undef := false } }

/-! ### The whole machine -/

/-- R128, R220: TICK completes from every state and every command completes; none touches the configuration, MODE, the ports or
what the host will present. -/
def Obligations.EveryCommandCompletes : Prop :=
  (∀ s : State, ∃ t : State, exec .tick s = .next t) ∧
  (∀ (i : Instr) (s : State), 1 ≤ s.cfg.latchesPerRev →
    ∃ t : State, exec i s = .next t ∧ t.cfg = s.cfg ∧ t.constructed = s.constructed ∧ t.mode = s.mode ∧ t.ports = s.ports ∧
      t.host = s.host)

/-- 00_scope.md section 7 and 70_reset_and_hazards.md section 5: a host that presents only defined modes and defined commands is
never refused. -/
def Obligations.LegalRunsComplete : Prop :=
  ∀ (s : State) (steps : List Ports), s.Ready → (∀ p ∈ steps, p.legal = true) →
    ∃ t : State, s.runSteps steps = .next t ∧ t.Ready ∧ t.host = []

/-- R78: commands take effect in the order presented, each on the state the earlier ones left. -/
def Obligations.RunsCompose : Prop :=
  ∀ (s : State) (first second : List Ports),
    s.runSteps (first ++ second) =
      match s.runSteps first with
      | .next t => t.runSteps second
      | .fault f => .fault f
      | .refused r => .refused r

/-- 30_encoding.md section 2, the response encoding (the spec's decisions D9 and D13): TICK and SET_POSITION give no response, the
four queries give one, and only GET_RPM may set the undefined bit. -/
def Obligations.ResponsesByCommand : Prop :=
  ∀ (i : Instr) (s t : State), exec i s = .next t →
    (t.rsp = none ↔ i = .tick ∨ ∃ n : Word, i = .setPosition n) ∧
    (∀ r : Response, t.rsp = some r → r.undef = true → i = .getRpm)

/-- 30_encoding.md section 1, the ports: only TICK uses the pins, only TICK and GET_RPM use the clock, and TICK uses it at a latch
event only: not where the sample is unchanged, and not where the new raw state is no latch state. -/
def Obligations.InputsUsedByTheirReadersOnly : Prop :=
  (∀ (i : Instr) (s t : State) (p : Ports), i ≠ .tick → (i = .getRpm → p.nowMs = s.ports.nowMs) → exec i s = .next t →
    exec i { s with ports := p } = .next { t with ports := p }) ∧
  (∀ (s t : State) (now : Word), pinSample s.ports = s.rawState ∨ isLatch s.mode (pinSample s.ports) = false →
    exec .tick s = .next t →
    exec .tick { s with ports := { s.ports with nowMs := now } } = .next { t with ports := { s.ports with nowMs := now } })

/-- 10_state.md section 5, hidden state (the spec derives it): INTERNAL_POS and RAW_STATE show in no query. -/
def Obligations.HiddenStateUnseenByQueries : Prop :=
  ∀ (i : Instr) (s t : State) (internal : Word) (raw : RawState), i ≠ .tick → (∀ n : Word, i ≠ .setPosition n) →
    exec i s = .next t →
    exec i { s with internalPos := internal, rawState := raw } = .next { t with internalPos := internal, rawState := raw }

/-- 10_state.md section 6, (b) (the spec derives it): the mode changes at a reset only, and then to the mode of `cfg_mode`. That the
configuration never changes is log entry 3. -/
def Obligations.ModeFixedBetweenResets : Prop :=
  ∀ s t : State, step s = .next t → t.cfg = s.cfg ∧
    (t.mode = s.mode ∨ ∃ (p : Ports) (later : List Ports), s.host = p :: later ∧ p.rst = true ∧ p.cfgMode = modeCode t.mode)

/-- 10_state.md section 6, (c) (the spec derives it): only a latch event, or a reset, changes a timestamp. -/
def Obligations.OnlyLatchEventsChangeTimestamps : Prop :=
  ∀ s t : State, step s = .next t →
    (t.lastChangeTime = s.lastChangeTime ∧ t.priorChangeTime = s.priorChangeTime) ∨
    ∃ (p : Ports) (later : List Ports), s.host = p :: later ∧
      (p.rst = true ∨
       (p.Presents 0b000#3 ∧ pinSample p ≠ s.rawState ∧ isLatch s.mode (pinSample p) = true ∧
        t.priorChangeTime = s.lastChangeTime ∧ t.lastChangeTime = p.nowMs))

/-- 10_state.md section 6, (d) (the spec derives it): only GET_DIRECTION and SET_POSITION, or a reset, change PREV_EXTERNAL_POS. -/
def Obligations.OnlyTwoCommandsChangeTheSnapshot : Prop :=
  ∀ s t : State, step s = .next t →
    t.prevExternalPos = s.prevExternalPos ∨
    ∃ (p : Ports) (later : List Ports), s.host = p :: later ∧
      (p.rst = true ∨ p.Presents 0b010#3 ∨ p.Presents 0b011#3)

/-- 10_state.md section 6, (e) (the spec derives it): a reset, a latch event and an in-range SET_POSITION bring EXTERNAL_POS to the
shifted INTERNAL_POS, from any state; once there, only a TICK that moves INTERNAL_POS without latching or a SET_POSITION out of
range can part them. -/
def Obligations.PositionsInSyncUntilUnlatchedMove : Prop :=
  ∀ (s t : State) (p : Ports) (later : List Ports), s.host = p :: later → step s = .next t →
    (p.rst = true → t.InSync) ∧
    (p.Presents 0b000#3 → pinSample p ≠ s.rawState → isLatch s.mode (pinSample p) = true → t.InSync) ∧
    (p.Presents 0b011#3 → InRange s.mode (argField p.cmd) → t.InSync) ∧
    (s.InSync → t.InSync ∨
      (p.Presents 0b000#3 ∧ t.internalPos ≠ s.internalPos ∧ isLatch s.mode (pinSample p) = false) ∨
      (p.Presents 0b011#3 ∧ ¬InRange s.mode (argField p.cmd)))

/-- The low bit of INTERNAL_POS is the parity of RAW_STATE's bits, at every step: the table's entries, the phase SET_POSITION keeps
and the reset values keep it so. The spec does not state this; it follows from 10_state.md sections 1, 3 and 41_position.md. -/
def Obligations.StepKeepsPhaseParity : Prop :=
  ∀ s t : State, s.PhaseAgrees → step s = .next t → t.PhaseAgrees

/-- The parity invariant holds after reset. -/
def Obligations.PhaseParityAfterReset : Prop := State.reset.PhaseAgrees

/-- 30_encoding.md section 4 (the spec's decision D27): every program line is a step the host may present, and presents its own
command or, for a reset line, its own mode (the mode of one that names none is log entry 9). -/
def Obligations.ProgramLinesAreLegalSteps : Prop :=
  ∀ (others : Ports) (l : Line), (l.ports others).legal = true ∧
    ((l.ports others).rst = true ↔ ∃ m : Option LatchMode, l = .reset m) ∧
    (∀ m : LatchMode, l = .reset (some m) → (l.ports others).cfgMode = modeCode m) ∧
    (l = .reset none → (l.ports others).cfgMode = modeCode .fourLatchAt0) ∧
    (∀ n : Word, l = .setPosition n → decode (l.ports others).cmd = .ok (.setPosition n)) ∧
    (∀ (a b : BitVec 1) (now : Word), l = .tick a b now →
      decode (l.ports others).cmd = .ok .tick ∧ pinSample (l.ports others) = b ++ a ∧ (l.ports others).nowMs = now) ∧
    (∀ now : Word, l = .getRpm now → decode (l.ports others).cmd = .ok .getRpm ∧ (l.ports others).nowMs = now) ∧
    (l = .getPosition → decode (l.ports others).cmd = .ok .getPosition) ∧
    (l = .getDirection → decode (l.ports others).cmd = .ok .getDirection) ∧
    (l = .getMillisBetweenRotations → decode (l.ports others).cmd = .ok .getMillisBetweenRotations)
end

