-- ==== Sys2Proof/Laws/State.lean ====
section
/-! SUPPORT. One lemma per field per update of State, so that no proof unfolds a record update. -/

namespace Sys2Proof.Machine

variable (s : State)

@[simp] theorem State.setRawState_cfg (v : RawState) : (s.setRawState v).cfg = s.cfg := rfl
@[simp] theorem State.setRawState_constructed (v : RawState) : (s.setRawState v).constructed = s.constructed := rfl
@[simp] theorem State.setRawState_mode (v : RawState) : (s.setRawState v).mode = s.mode := rfl
@[simp] theorem State.setRawState_rawState (v : RawState) : (s.setRawState v).rawState = v := rfl
@[simp] theorem State.setRawState_internalPos (v : RawState) : (s.setRawState v).internalPos = s.internalPos := rfl
@[simp] theorem State.setRawState_externalPos (v : RawState) : (s.setRawState v).externalPos = s.externalPos := rfl
@[simp] theorem State.setRawState_prevExternalPos (v : RawState) : (s.setRawState v).prevExternalPos = s.prevExternalPos := rfl
@[simp] theorem State.setRawState_lastChangeTime (v : RawState) : (s.setRawState v).lastChangeTime = s.lastChangeTime := rfl
@[simp] theorem State.setRawState_priorChangeTime (v : RawState) : (s.setRawState v).priorChangeTime = s.priorChangeTime := rfl
@[simp] theorem State.setRawState_ports (v : RawState) : (s.setRawState v).ports = s.ports := rfl
@[simp] theorem State.setRawState_rsp (v : RawState) : (s.setRawState v).rsp = s.rsp := rfl
@[simp] theorem State.setRawState_host (v : RawState) : (s.setRawState v).host = s.host := rfl

@[simp] theorem State.setInternalPos_cfg (v : Word) : (s.setInternalPos v).cfg = s.cfg := rfl
@[simp] theorem State.setInternalPos_constructed (v : Word) : (s.setInternalPos v).constructed = s.constructed := rfl
@[simp] theorem State.setInternalPos_mode (v : Word) : (s.setInternalPos v).mode = s.mode := rfl
@[simp] theorem State.setInternalPos_rawState (v : Word) : (s.setInternalPos v).rawState = s.rawState := rfl
@[simp] theorem State.setInternalPos_internalPos (v : Word) : (s.setInternalPos v).internalPos = v := rfl
@[simp] theorem State.setInternalPos_externalPos (v : Word) : (s.setInternalPos v).externalPos = s.externalPos := rfl
@[simp] theorem State.setInternalPos_prevExternalPos (v : Word) : (s.setInternalPos v).prevExternalPos = s.prevExternalPos := rfl
@[simp] theorem State.setInternalPos_lastChangeTime (v : Word) : (s.setInternalPos v).lastChangeTime = s.lastChangeTime := rfl
@[simp] theorem State.setInternalPos_priorChangeTime (v : Word) : (s.setInternalPos v).priorChangeTime = s.priorChangeTime := rfl
@[simp] theorem State.setInternalPos_ports (v : Word) : (s.setInternalPos v).ports = s.ports := rfl
@[simp] theorem State.setInternalPos_rsp (v : Word) : (s.setInternalPos v).rsp = s.rsp := rfl
@[simp] theorem State.setInternalPos_host (v : Word) : (s.setInternalPos v).host = s.host := rfl

@[simp] theorem State.setExternalPos_cfg (v : Word) : (s.setExternalPos v).cfg = s.cfg := rfl
@[simp] theorem State.setExternalPos_constructed (v : Word) : (s.setExternalPos v).constructed = s.constructed := rfl
@[simp] theorem State.setExternalPos_mode (v : Word) : (s.setExternalPos v).mode = s.mode := rfl
@[simp] theorem State.setExternalPos_rawState (v : Word) : (s.setExternalPos v).rawState = s.rawState := rfl
@[simp] theorem State.setExternalPos_internalPos (v : Word) : (s.setExternalPos v).internalPos = s.internalPos := rfl
@[simp] theorem State.setExternalPos_externalPos (v : Word) : (s.setExternalPos v).externalPos = v := rfl
@[simp] theorem State.setExternalPos_prevExternalPos (v : Word) : (s.setExternalPos v).prevExternalPos = s.prevExternalPos := rfl
@[simp] theorem State.setExternalPos_lastChangeTime (v : Word) : (s.setExternalPos v).lastChangeTime = s.lastChangeTime := rfl
@[simp] theorem State.setExternalPos_priorChangeTime (v : Word) : (s.setExternalPos v).priorChangeTime = s.priorChangeTime := rfl
@[simp] theorem State.setExternalPos_ports (v : Word) : (s.setExternalPos v).ports = s.ports := rfl
@[simp] theorem State.setExternalPos_rsp (v : Word) : (s.setExternalPos v).rsp = s.rsp := rfl
@[simp] theorem State.setExternalPos_host (v : Word) : (s.setExternalPos v).host = s.host := rfl

@[simp] theorem State.setPrevExternalPos_cfg (v : Word) : (s.setPrevExternalPos v).cfg = s.cfg := rfl
@[simp] theorem State.setPrevExternalPos_constructed (v : Word) : (s.setPrevExternalPos v).constructed = s.constructed := rfl
@[simp] theorem State.setPrevExternalPos_mode (v : Word) : (s.setPrevExternalPos v).mode = s.mode := rfl
@[simp] theorem State.setPrevExternalPos_rawState (v : Word) : (s.setPrevExternalPos v).rawState = s.rawState := rfl
@[simp] theorem State.setPrevExternalPos_internalPos (v : Word) : (s.setPrevExternalPos v).internalPos = s.internalPos := rfl
@[simp] theorem State.setPrevExternalPos_externalPos (v : Word) : (s.setPrevExternalPos v).externalPos = s.externalPos := rfl
@[simp] theorem State.setPrevExternalPos_prevExternalPos (v : Word) : (s.setPrevExternalPos v).prevExternalPos = v := rfl
@[simp] theorem State.setPrevExternalPos_lastChangeTime (v : Word) : (s.setPrevExternalPos v).lastChangeTime = s.lastChangeTime := rfl
@[simp] theorem State.setPrevExternalPos_priorChangeTime (v : Word) : (s.setPrevExternalPos v).priorChangeTime = s.priorChangeTime := rfl
@[simp] theorem State.setPrevExternalPos_ports (v : Word) : (s.setPrevExternalPos v).ports = s.ports := rfl
@[simp] theorem State.setPrevExternalPos_rsp (v : Word) : (s.setPrevExternalPos v).rsp = s.rsp := rfl
@[simp] theorem State.setPrevExternalPos_host (v : Word) : (s.setPrevExternalPos v).host = s.host := rfl

@[simp] theorem State.setLastChangeTime_cfg (v : Word) : (s.setLastChangeTime v).cfg = s.cfg := rfl
@[simp] theorem State.setLastChangeTime_constructed (v : Word) : (s.setLastChangeTime v).constructed = s.constructed := rfl
@[simp] theorem State.setLastChangeTime_mode (v : Word) : (s.setLastChangeTime v).mode = s.mode := rfl
@[simp] theorem State.setLastChangeTime_rawState (v : Word) : (s.setLastChangeTime v).rawState = s.rawState := rfl
@[simp] theorem State.setLastChangeTime_internalPos (v : Word) : (s.setLastChangeTime v).internalPos = s.internalPos := rfl
@[simp] theorem State.setLastChangeTime_externalPos (v : Word) : (s.setLastChangeTime v).externalPos = s.externalPos := rfl
@[simp] theorem State.setLastChangeTime_prevExternalPos (v : Word) : (s.setLastChangeTime v).prevExternalPos = s.prevExternalPos := rfl
@[simp] theorem State.setLastChangeTime_lastChangeTime (v : Word) : (s.setLastChangeTime v).lastChangeTime = v := rfl
@[simp] theorem State.setLastChangeTime_priorChangeTime (v : Word) : (s.setLastChangeTime v).priorChangeTime = s.priorChangeTime := rfl
@[simp] theorem State.setLastChangeTime_ports (v : Word) : (s.setLastChangeTime v).ports = s.ports := rfl
@[simp] theorem State.setLastChangeTime_rsp (v : Word) : (s.setLastChangeTime v).rsp = s.rsp := rfl
@[simp] theorem State.setLastChangeTime_host (v : Word) : (s.setLastChangeTime v).host = s.host := rfl

@[simp] theorem State.setPriorChangeTime_cfg (v : Word) : (s.setPriorChangeTime v).cfg = s.cfg := rfl
@[simp] theorem State.setPriorChangeTime_constructed (v : Word) : (s.setPriorChangeTime v).constructed = s.constructed := rfl
@[simp] theorem State.setPriorChangeTime_mode (v : Word) : (s.setPriorChangeTime v).mode = s.mode := rfl
@[simp] theorem State.setPriorChangeTime_rawState (v : Word) : (s.setPriorChangeTime v).rawState = s.rawState := rfl
@[simp] theorem State.setPriorChangeTime_internalPos (v : Word) : (s.setPriorChangeTime v).internalPos = s.internalPos := rfl
@[simp] theorem State.setPriorChangeTime_externalPos (v : Word) : (s.setPriorChangeTime v).externalPos = s.externalPos := rfl
@[simp] theorem State.setPriorChangeTime_prevExternalPos (v : Word) : (s.setPriorChangeTime v).prevExternalPos = s.prevExternalPos := rfl
@[simp] theorem State.setPriorChangeTime_lastChangeTime (v : Word) : (s.setPriorChangeTime v).lastChangeTime = s.lastChangeTime := rfl
@[simp] theorem State.setPriorChangeTime_priorChangeTime (v : Word) : (s.setPriorChangeTime v).priorChangeTime = v := rfl
@[simp] theorem State.setPriorChangeTime_ports (v : Word) : (s.setPriorChangeTime v).ports = s.ports := rfl
@[simp] theorem State.setPriorChangeTime_rsp (v : Word) : (s.setPriorChangeTime v).rsp = s.rsp := rfl
@[simp] theorem State.setPriorChangeTime_host (v : Word) : (s.setPriorChangeTime v).host = s.host := rfl

@[simp] theorem State.respond_cfg (v : Word) : (s.respond v).cfg = s.cfg := rfl
@[simp] theorem State.respond_constructed (v : Word) : (s.respond v).constructed = s.constructed := rfl
@[simp] theorem State.respond_mode (v : Word) : (s.respond v).mode = s.mode := rfl
@[simp] theorem State.respond_rawState (v : Word) : (s.respond v).rawState = s.rawState := rfl
@[simp] theorem State.respond_internalPos (v : Word) : (s.respond v).internalPos = s.internalPos := rfl
@[simp] theorem State.respond_externalPos (v : Word) : (s.respond v).externalPos = s.externalPos := rfl
@[simp] theorem State.respond_prevExternalPos (v : Word) : (s.respond v).prevExternalPos = s.prevExternalPos := rfl
@[simp] theorem State.respond_lastChangeTime (v : Word) : (s.respond v).lastChangeTime = s.lastChangeTime := rfl
@[simp] theorem State.respond_priorChangeTime (v : Word) : (s.respond v).priorChangeTime = s.priorChangeTime := rfl
@[simp] theorem State.respond_ports (v : Word) : (s.respond v).ports = s.ports := rfl
@[simp] theorem State.respond_rsp (v : Word) : (s.respond v).rsp = some { data := v, undef := false } := rfl
@[simp] theorem State.respond_host (v : Word) : (s.respond v).host = s.host := rfl

@[simp] theorem State.respondUndef_cfg (v : Word) : (s.respondUndef v).cfg = s.cfg := rfl
@[simp] theorem State.respondUndef_constructed (v : Word) : (s.respondUndef v).constructed = s.constructed := rfl
@[simp] theorem State.respondUndef_mode (v : Word) : (s.respondUndef v).mode = s.mode := rfl
@[simp] theorem State.respondUndef_rawState (v : Word) : (s.respondUndef v).rawState = s.rawState := rfl
@[simp] theorem State.respondUndef_internalPos (v : Word) : (s.respondUndef v).internalPos = s.internalPos := rfl
@[simp] theorem State.respondUndef_externalPos (v : Word) : (s.respondUndef v).externalPos = s.externalPos := rfl
@[simp] theorem State.respondUndef_prevExternalPos (v : Word) : (s.respondUndef v).prevExternalPos = s.prevExternalPos := rfl
@[simp] theorem State.respondUndef_lastChangeTime (v : Word) : (s.respondUndef v).lastChangeTime = s.lastChangeTime := rfl
@[simp] theorem State.respondUndef_priorChangeTime (v : Word) : (s.respondUndef v).priorChangeTime = s.priorChangeTime := rfl
@[simp] theorem State.respondUndef_ports (v : Word) : (s.respondUndef v).ports = s.ports := rfl
@[simp] theorem State.respondUndef_rsp (v : Word) : (s.respondUndef v).rsp = some { data := v, undef := true } := rfl
@[simp] theorem State.respondUndef_host (v : Word) : (s.respondUndef v).host = s.host := rfl

@[simp] theorem State.noResponse_cfg : (s.noResponse).cfg = s.cfg := rfl
@[simp] theorem State.noResponse_constructed : (s.noResponse).constructed = s.constructed := rfl
@[simp] theorem State.noResponse_mode : (s.noResponse).mode = s.mode := rfl
@[simp] theorem State.noResponse_rawState : (s.noResponse).rawState = s.rawState := rfl
@[simp] theorem State.noResponse_internalPos : (s.noResponse).internalPos = s.internalPos := rfl
@[simp] theorem State.noResponse_externalPos : (s.noResponse).externalPos = s.externalPos := rfl
@[simp] theorem State.noResponse_prevExternalPos : (s.noResponse).prevExternalPos = s.prevExternalPos := rfl
@[simp] theorem State.noResponse_lastChangeTime : (s.noResponse).lastChangeTime = s.lastChangeTime := rfl
@[simp] theorem State.noResponse_priorChangeTime : (s.noResponse).priorChangeTime = s.priorChangeTime := rfl
@[simp] theorem State.noResponse_ports : (s.noResponse).ports = s.ports := rfl
@[simp] theorem State.noResponse_rsp : (s.noResponse).rsp = none := rfl
@[simp] theorem State.noResponse_host : (s.noResponse).host = s.host := rfl

@[simp] theorem State.sample_cfg (p : Ports) (later : List Ports) : (s.sample p later).cfg = s.cfg := rfl
@[simp] theorem State.sample_constructed (p : Ports) (later : List Ports) : (s.sample p later).constructed = s.constructed := rfl
@[simp] theorem State.sample_mode (p : Ports) (later : List Ports) : (s.sample p later).mode = s.mode := rfl
@[simp] theorem State.sample_rawState (p : Ports) (later : List Ports) : (s.sample p later).rawState = s.rawState := rfl
@[simp] theorem State.sample_internalPos (p : Ports) (later : List Ports) : (s.sample p later).internalPos = s.internalPos := rfl
@[simp] theorem State.sample_externalPos (p : Ports) (later : List Ports) : (s.sample p later).externalPos = s.externalPos := rfl
@[simp] theorem State.sample_prevExternalPos (p : Ports) (later : List Ports) : (s.sample p later).prevExternalPos = s.prevExternalPos := rfl
@[simp] theorem State.sample_lastChangeTime (p : Ports) (later : List Ports) : (s.sample p later).lastChangeTime = s.lastChangeTime := rfl
@[simp] theorem State.sample_priorChangeTime (p : Ports) (later : List Ports) : (s.sample p later).priorChangeTime = s.priorChangeTime := rfl
@[simp] theorem State.sample_ports (p : Ports) (later : List Ports) : (s.sample p later).ports = p := rfl
@[simp] theorem State.sample_rsp (p : Ports) (later : List Ports) : (s.sample p later).rsp = s.rsp := rfl
@[simp] theorem State.sample_host (p : Ports) (later : List Ports) : (s.sample p later).host = later := rfl

@[simp] theorem State.construct_cfg (m : LatchMode) : (s.construct m).cfg = s.cfg := rfl
@[simp] theorem State.construct_constructed (m : LatchMode) : (s.construct m).constructed = true := rfl
@[simp] theorem State.construct_mode (m : LatchMode) : (s.construct m).mode = m := rfl
@[simp] theorem State.construct_rawState (m : LatchMode) : (s.construct m).rawState = 3 := rfl
@[simp] theorem State.construct_internalPos (m : LatchMode) : (s.construct m).internalPos = 0 := rfl
@[simp] theorem State.construct_externalPos (m : LatchMode) : (s.construct m).externalPos = 0 := rfl
@[simp] theorem State.construct_prevExternalPos (m : LatchMode) : (s.construct m).prevExternalPos = 0 := rfl
@[simp] theorem State.construct_lastChangeTime (m : LatchMode) : (s.construct m).lastChangeTime = 0 := rfl
@[simp] theorem State.construct_priorChangeTime (m : LatchMode) : (s.construct m).priorChangeTime = 0 := rfl
@[simp] theorem State.construct_ports (m : LatchMode) : (s.construct m).ports = s.ports := rfl
@[simp] theorem State.construct_rsp (m : LatchMode) : (s.construct m).rsp = s.rsp := rfl
@[simp] theorem State.construct_host (m : LatchMode) : (s.construct m).host = s.host := rfl

end Sys2Proof.Machine
end

