-- ==== Sys2Proof/Laws/Ops.lean ====
section
/-! SUPPORT. One lemma per shared operation, saying everything it can do; later proofs cite these and do not unfold it. -/

namespace Sys2Proof.Machine

theorem wellFormed_iff (cfg : Config) : cfg.wellFormed = true ↔ 1 ≤ cfg.latchesPerRev := by
  simp [Config.wellFormed]

/-- The MODE codes are a bijection with the modes. -/
theorem modeOfCode_some_iff (c : BitVec 2) (m : LatchMode) : modeOfCode c = some m ↔ c = modeCode m := by
  cases m <;> revert c <;> decide

theorem modeOfCode_none_iff (c : BitVec 2) : modeOfCode c = none ↔ c = 0 := by
  revert c; decide

/-- Taking the host's step succeeds only by sampling the first pending step. -/
theorem takeStep_ok_iff (s s1 : State) :
    takeStep s = .ok s1 ↔ ∃ p later, s.host = p :: later ∧ 1 ≤ s.cfg.latchesPerRev ∧ s1 = s.sample p later := by
  unfold takeStep
  cases hh : s.host with
  | nil => simp
  | cons p later =>
    by_cases hc : s.cfg.wellFormed = true
    · have := (wellFormed_iff _).1 hc
      simp [hc, this, eq_comm]
    · have : ¬ 1 ≤ s.cfg.latchesPerRev := fun h => hc ((wellFormed_iff _).2 h)
      simp [hc, this]

theorem takeStep_error_iff (s : State) (r : Refusal) :
    takeStep s = .error r ↔
      (s.host = [] ∧ r = .noStepPresented) ∨ (s.host ≠ [] ∧ s.cfg.latchesPerRev = 0 ∧ r = .reservedConfiguration) := by
  unfold takeStep
  cases hh : s.host with
  | nil => simp [eq_comm]
  | cons p later =>
    by_cases hc : s.cfg.wellFormed = true
    · have := (wellFormed_iff _).1 hc
      have : s.cfg.latchesPerRev ≠ 0 := by omega
      simp [hc, this]
    · have : s.cfg.latchesPerRev = 0 := by
        by_contra h
        exact hc ((wellFormed_iff _).2 (by omega))
      simp [hc, this, eq_comm]

theorem fetchCommand_ok_iff (s : State) (i : Instr) :
    fetchCommand s = .ok i ↔ s.constructed = true ∧ decode s.ports.cmd = .ok i := by
  unfold fetchCommand
  cases s.constructed
  · simp
  · rcases decode s.ports.cmd with ⟨op⟩ | i' <;> simp

theorem fetchCommand_error_iff (s : State) (r : Refusal) :
    fetchCommand s = .error r ↔
      (s.constructed = false ∧ r = .commandBeforeReset) ∨
      (s.constructed = true ∧ ∃ op, decode s.ports.cmd = .error (.reservedCommand op) ∧ r = .reservedCommand op) := by
  unfold fetchCommand
  cases s.constructed
  · simp [eq_comm]
  · rcases decode s.ports.cmd with ⟨⟨op⟩⟩ | i' <;> simp [eq_comm]

theorem resetBlock_next_iff (c : BitVec 2) (s t : State) :
    resetBlock c s = .next t ↔ ∃ m, c = modeCode m ∧ t = (s.construct m).noResponse := by
  unfold resetBlock
  cases hm : modeOfCode c with
  | none =>
    have := (modeOfCode_none_iff c).1 hm
    subst this
    simp only [false_iff, not_exists, not_and, reduceCtorEq]
    intro m h
    exact absurd h (by cases m <;> decide)
  | some m =>
    have hc := (modeOfCode_some_iff c m).1 hm
    constructor
    · intro h
      cases h
      exact ⟨m, hc, rfl⟩
    · rintro ⟨m', hc', rfl⟩
      have : m = m' := by
        have := (modeOfCode_some_iff c m').2 hc'
        simpa [hm] using this
      rw [this]

theorem resetBlock_refused_iff (c : BitVec 2) (s : State) (r : Refusal) :
    resetBlock c s = .refused r ↔ c = 0 ∧ r = .reservedMode := by
  unfold resetBlock
  cases hm : modeOfCode c with
  | none => simp [(modeOfCode_none_iff c).1 hm, eq_comm]
  | some m =>
    have hc := (modeOfCode_some_iff c m).1 hm
    have h0 : ¬c = 0#2 := by subst hc; cases m <;> decide
    simp [h0]

/-! The parts of TICK: which register each writes. -/

variable (s : State) (cur : RawState)

theorem accumulate_eq :
    accumulate cur s = { s with internalPos := s.internalPos + delta (s.rawState ++ cur) } := rfl

@[simp] theorem accumulate_mode : (accumulate cur s).mode = s.mode := rfl
@[simp] theorem accumulate_rawState : (accumulate cur s).rawState = s.rawState := rfl
@[simp] theorem accumulate_externalPos : (accumulate cur s).externalPos = s.externalPos := rfl
@[simp] theorem accumulate_prevExternalPos : (accumulate cur s).prevExternalPos = s.prevExternalPos := rfl
@[simp] theorem accumulate_lastChangeTime : (accumulate cur s).lastChangeTime = s.lastChangeTime := rfl
@[simp] theorem accumulate_priorChangeTime : (accumulate cur s).priorChangeTime = s.priorChangeTime := rfl
@[simp] theorem accumulate_cfg : (accumulate cur s).cfg = s.cfg := rfl
@[simp] theorem accumulate_constructed : (accumulate cur s).constructed = s.constructed := rfl
@[simp] theorem accumulate_ports : (accumulate cur s).ports = s.ports := rfl
@[simp] theorem accumulate_host : (accumulate cur s).host = s.host := rfl

theorem latchEvent_eq :
    latchEvent s =
      { s with
        externalPos := s.internalPos.sshiftRight (shift s.mode)
        priorChangeTime := s.lastChangeTime
        lastChangeTime := s.ports.nowMs } := rfl

theorem latchGate_of_latch (h : isLatch s.mode cur = true) : latchGate cur s = latchEvent s := if_pos h

theorem latchGate_of_not_latch (h : isLatch s.mode cur = false) : latchGate cur s = s := by
  simp [latchGate, h]

/-- The latch gate leaves every register but EXTERNAL_POS and the timestamps. -/
@[simp] theorem latchGate_internalPos : (latchGate cur s).internalPos = s.internalPos := by
  unfold latchGate; split <;> rfl
@[simp] theorem latchGate_rawState : (latchGate cur s).rawState = s.rawState := by unfold latchGate; split <;> rfl
@[simp] theorem latchGate_mode : (latchGate cur s).mode = s.mode := by unfold latchGate; split <;> rfl
@[simp] theorem latchGate_prevExternalPos : (latchGate cur s).prevExternalPos = s.prevExternalPos := by
  unfold latchGate; split <;> rfl
@[simp] theorem latchGate_cfg : (latchGate cur s).cfg = s.cfg := by unfold latchGate; split <;> rfl
@[simp] theorem latchGate_constructed : (latchGate cur s).constructed = s.constructed := by unfold latchGate; split <;> rfl
@[simp] theorem latchGate_ports : (latchGate cur s).ports = s.ports := by unfold latchGate; split <;> rfl
@[simp] theorem latchGate_host : (latchGate cur s).host = s.host := by unfold latchGate; split <;> rfl

end Sys2Proof.Machine
end

