-- ==== Sys2Proof/Laws/Step.lean ====
section
/-! SUPPORT. What one step can do, said once. -/

namespace Sys2Proof.Machine

/-- A step with a next state is a reset to a defined mode or the execution of a decoded command. -/
theorem step_next_cases {s t : State} (h : step s = .next t) :
    ∃ p later, s.host = p :: later ∧ 1 ≤ s.cfg.latchesPerRev ∧
      ((p.rst = true ∧ ∃ m, p.cfgMode = modeCode m ∧ t = ((s.sample p later).construct m).noResponse) ∨
       (p.rst = false ∧ s.constructed = true ∧ ∃ i, decode p.cmd = .ok i ∧ exec i (s.sample p later) = .next t)) := by
  unfold step at h
  cases hts : takeStep s with
  | error r => rw [hts] at h; cases h
  | ok s1 =>
    obtain ⟨p, later, hh, hk, rfl⟩ := (takeStep_ok_iff s s1).1 hts
    refine ⟨p, later, hh, hk, ?_⟩
    simp only [hts, State.sample_ports] at h
    cases hr : p.rst with
    | true =>
      simp only [hr, if_true] at h
      exact .inl ⟨rfl, (resetBlock_next_iff _ _ _).1 h⟩
    | false =>
      simp only [hr] at h
      cases hf : fetchCommand (s.sample p later) with
      | error r => rw [hf] at h; cases h
      | ok i =>
        obtain ⟨hc, hd⟩ := (fetchCommand_ok_iff _ _).1 hf
        rw [hf] at h
        exact .inr ⟨rfl, hc, i, hd, h⟩

/-- A step whose host step is taken, as a reset. -/
theorem step_of_reset {s : State} {p : Ports} {later : List Ports} (hh : s.host = p :: later)
    (hk : 1 ≤ s.cfg.latchesPerRev) (hr : p.rst = true) : step s = resetBlock p.cfgMode (s.sample p later) := by
  have := (takeStep_ok_iff s _).2 ⟨p, later, hh, hk, rfl⟩
  simp [step, this, hr]

/-- What TICK can do: nothing, or count and latch as the mode says. -/
theorem execTick_next_iff (s t : State) :
    execTick s = .next t ↔
      (pinSample s.ports = s.rawState ∧ t = s.noResponse) ∨
      (pinSample s.ports ≠ s.rawState ∧
        t = ((latchGate (pinSample s.ports) (accumulate (pinSample s.ports) s)).setRawState (pinSample s.ports)).noResponse) := by
  unfold execTick
  by_cases h : pinSample s.ports = s.rawState <;> simp [h, eq_comm]

end Sys2Proof.Machine
end

