-- ==== Sys2Proof/Laws/Words.lean ====
section
/-! SUPPORT. Facts about command words, the table and the operators, for the proofs over them. -/

namespace Sys2Proof

/-- A command word is its arg above its op (R91). -/
theorem word_eq_append (w : CommandWord) : w = argField w ++ opField w := by
  apply BitVec.eq_of_getLsbD_eq
  intro i hi
  simp only [argField, opField, BitVec.getLsbD_append, BitVec.getLsbD_extractLsb']
  by_cases h : i < 3
  · simp [h]
  · have : 3 + (i - 3) = i := by omega
    have : i - 3 < 32 := by omega
    simp_all

theorem opField_append (n : Word) (op : BitVec 3) : opField (n ++ op) = op := by
  apply BitVec.eq_of_getLsbD_eq
  intro i hi
  rw [opField, BitVec.getLsbD_extractLsb', BitVec.getLsbD_append]
  simp [hi]

theorem argField_append (n : Word) (op : BitVec 3) : argField (n ++ op) = n := by
  apply BitVec.eq_of_getLsbD_eq
  intro i hi
  rw [argField, BitVec.getLsbD_extractLsb', BitVec.getLsbD_append]
  simp [hi]

namespace Machine

/-- Pins above and below one another give back the sample's bits. -/
theorem pinSample_eq (p : Ports) : pinSample p = p.pinB ++ p.pinA := rfl

/-- The table's entries are -1, 0 and +1. -/
theorem lut_cases (key : LutKey) : lut key = 0 ∨ lut key = 1 ∨ lut key = -1 := by revert key; decide

theorem delta_eq_ofInt (key : LutKey) : delta key = BitVec.ofInt 32 (lut key).toInt := by revert key; decide

/-- The low bit of an entry is the parity of the bits that change. -/
theorem delta_low_bit (raw cur : RawState) :
    (delta (raw ++ cur)).getLsbD 0 = ((raw.getLsbD 0 ^^ raw.getLsbD 1) ^^ (cur.getLsbD 0 ^^ cur.getLsbD 1)) := by
  revert raw cur; decide

/-- The low bit of a sum is the sum of the low bits. -/
theorem add_low_bit (a b : Word) : (a + b).getLsbD 0 = (a.getLsbD 0 ^^ b.getLsbD 0) := by
  rw [BitVec.getLsbD_add (by decide)]
  simp

theorem shift_pos (m : LatchMode) : 1 ≤ shift m := by cases m <;> decide
theorem shift_le (m : LatchMode) : shift m ≤ 2 := by cases m <;> decide

/-- The mask of the sub-latch phase keeps exactly the low `shift` bits (R151). -/
theorem subLatchPhase_getLsbD (m : LatchMode) (x : Word) (j : Nat) :
    (subLatchPhase m x).getLsbD j = (decide (j < shift m) && x.getLsbD j) := by
  by_cases h32 : j < 32
  · have key : ∀ (m : LatchMode) (j : Fin 32), (BitVec.ofNat 32 (2 ^ shift m - 1)).getLsbD j.1 = decide (j.1 < shift m) := by
      intro m; cases m <;> decide
    have := key m ⟨j, h32⟩
    simp only at this
    simp [subLatchPhase, this, Bool.and_comm]
  · have : x.getLsbD j = false := BitVec.getLsbD_of_ge x j (by omega)
    simp [subLatchPhase, this]

/-- The phase as a number: the remainder of the count by `2^shift`. -/
theorem subLatchPhase_toNat (m : LatchMode) (x : Word) : (subLatchPhase m x).toNat = x.toNat % 2 ^ shift m := by
  have : (2 ^ shift m - 1) % 2 ^ 32 = 2 ^ shift m - 1 := by cases m <;> decide
  rw [subLatchPhase, BitVec.toNat_and, BitVec.toNat_ofNat, this, Nat.and_two_pow_sub_one_eq_mod]

/-- The bits of INTERNAL_POS after SET_POSITION. -/
theorem repositioned_getLsbD (m : LatchMode) (x n : Word) (j : Nat) :
    (repositioned m x n).getLsbD j =
      if j < shift m then x.getLsbD j else (decide (j < 32) && n.getLsbD (j - shift m)) := by
  have := shift_le m
  rw [repositioned, shl32, BitVec.getLsbD_or, BitVec.getLsbD_shiftLeft, subLatchPhase_getLsbD]
  by_cases h : j < shift m
  · simp [h]
  · simp [h]

/-- An arithmetic shift is a floor division of the signed value (R11). -/
theorem sar32_toInt (x : Word) (n : Nat) : (sar32 x n).toInt = x.toInt / 2 ^ n := by
  simp [sar32, BitVec.toInt_sshiftRight, Int.shiftRight_eq_div_pow]

end Machine

end Sys2Proof
end

