-- ==== Sys2Proof/Laws/Meanings.lean ====
section
/-! SUPPORT. What each command's shared parts compute: the effect of TICK register by register, the phase arithmetic of
SET_POSITION, the direction code and the intervals of GET_RPM. -/

namespace Sys2Proof.Machine

theorem delta_same (raw : RawState) : delta (lutKey raw raw) = 0 := by revert raw; decide

theorem delta_antisymmetric (p c : RawState) : delta (lutKey p c) + delta (lutKey c p) = 0 := by revert p c; decide

theorem accumulate_internalPos (cur : RawState) (s : State) :
    (accumulate cur s).internalPos = s.internalPos + delta (lutKey s.rawState cur) := rfl

/-- TICK always answers a next state. -/
theorem execTick_completes (s : State) : ∃ t, execTick s = .next t := by
  by_cases h : pinSample s.ports = s.rawState
  · exact ⟨_, (execTick_next_iff s _).2 (.inl ⟨h, rfl⟩)⟩
  · exact ⟨_, (execTick_next_iff s _).2 (.inr ⟨h, rfl⟩)⟩

/-- What TICK leaves alone, and the registers it moves on every sample (an unchanged sample adds 0 and moves to itself). -/
theorem execTick_frame {s t : State} (h : execTick s = .next t) :
    t.cfg = s.cfg ∧ t.constructed = s.constructed ∧ t.mode = s.mode ∧ t.prevExternalPos = s.prevExternalPos ∧
      t.ports = s.ports ∧ t.host = s.host ∧ t.rsp = none ∧ t.rawState = pinSample s.ports ∧
      t.internalPos = s.internalPos + delta (lutKey s.rawState (pinSample s.ports)) := by
  rcases (execTick_next_iff s t).1 h with ⟨hs, rfl⟩ | ⟨_, rfl⟩
  · simp [hs, delta_same]
  · simp [accumulate_internalPos]

/-- The registers TICK moves at a latch event only. -/
theorem execTick_latch {s t : State} (h : execTick s = .next t) :
    (pinSample s.ports ≠ s.rawState ∧ isLatch s.mode (pinSample s.ports) = true →
      t.externalPos = sar32 t.internalPos (shift s.mode) ∧ t.priorChangeTime = s.lastChangeTime ∧
        t.lastChangeTime = s.ports.nowMs) ∧
    (¬(pinSample s.ports ≠ s.rawState ∧ isLatch s.mode (pinSample s.ports) = true) →
      t.externalPos = s.externalPos ∧ t.priorChangeTime = s.priorChangeTime ∧ t.lastChangeTime = s.lastChangeTime) := by
  rcases (execTick_next_iff s t).1 h with ⟨hs, rfl⟩ | ⟨hs, rfl⟩
  · simp [hs]
  · cases hl : isLatch s.mode (pinSample s.ports)
    · simp [hl, latchGate]
    · simp [hl, hs, latchGate, latchEvent]

/-- INTERNAL_POS after SET_POSITION, as a number. -/
theorem repositioned_toInt (m : LatchMode) (x n : Word) :
    (repositioned m x n).toInt = (n.toInt * 2 ^ shift m + (x.toNat % 2 ^ shift m : Nat)).bmod (2 ^ 32) := by
  have hsum : repositioned m x n = (n <<< shift m) + subLatchPhase m x := by
    rw [repositioned, shl32]
    symm
    apply BitVec.add_eq_or_of_and_eq_zero
    apply BitVec.eq_of_getLsbD_eq
    intro i hi
    rw [BitVec.getLsbD_and, BitVec.getLsbD_shiftLeft, subLatchPhase_getLsbD]
    by_cases h : i < shift m <;> simp [h]
  have hleft : (n <<< shift m).toInt = (n.toInt * 2 ^ shift m).bmod (2 ^ 32) := by
    rw [BitVec.toInt_shiftLeft, Nat.shiftLeft_eq, BitVec.toInt_eq_toNat_bmod n]
    push_cast
    rw [Int.bmod_mul_bmod]
  have hlow : (subLatchPhase m x).toInt = (x.toNat % 2 ^ shift m : Nat) := by
    have := shift_le m
    rw [BitVec.toInt_eq_toNat_of_lt, subLatchPhase_toNat]
    rw [subLatchPhase_toNat]
    have : x.toNat % 2 ^ shift m < 2 ^ shift m := Nat.mod_lt _ (by positivity)
    have : 2 ^ shift m ≤ 2 ^ 2 := Nat.pow_le_pow_right (by decide) (shift_le m)
    omega
  rw [hsum, BitVec.toInt_add, hleft, hlow, Int.bmod_add_bmod]

/-- The direction code, by the signed values. -/
theorem directionCode_directionOf (prev ext : Word) :
    directionCode (directionOf prev ext) =
      if prev.toInt < ext.toInt then 1 else if ext.toInt < prev.toInt then 0xFFFFFFFF else 0 := by
  have hlt : ∀ a b : Word, ltS a b = true ↔ a.toInt < b.toInt := fun a b => by simp [ltS, BitVec.slt_iff_toInt_lt]
  unfold directionOf
  by_cases h1 : prev.toInt < ext.toInt
  · simp [(hlt prev ext).2 h1, h1, directionCode]
  · by_cases h2 : ext.toInt < prev.toInt
    · simp [(hlt ext prev).2 h2, h1, h2, directionCode, hlt]
    · simp [h1, h2, directionCode, hlt]

theorem maxU_toNat (a b : Word) : (maxU a b).toNat = max a.toNat b.toNat := by
  unfold maxU
  split
  · rename_i h; rw [BitVec.lt_def] at h; omega
  · rename_i h; rw [BitVec.lt_def] at h; omega

/-- The time step of GET_RPM, as a number. -/
theorem rpmInterval_toNat (s : State) :
    (rpmInterval s).toNat =
      max (s.lastChangeTime - s.priorChangeTime).toNat (s.ports.nowMs - s.lastChangeTime).toNat := maxU_toNat _ _

end Sys2Proof.Machine
end

