-- ==== Sys2Proof/Laws/PerInstr.lean ====
section
/-! SUPPORT. Facts about each command as syntax, one lemma per constructor. -/

namespace Sys2Proof.Laws.OpField

/-- The encoded word carries the command's code in its op field and the command's operand in its arg field (R91). -/
def Statement (i : Instr) : Prop := opField (encode i) = opcode i ∧ argField (encode i) = operand i

theorem tick : Statement .tick := ⟨opField_append _ _, argField_append _ _⟩
theorem getPosition : Statement .getPosition := ⟨opField_append _ _, argField_append _ _⟩
theorem getDirection : Statement .getDirection := ⟨opField_append _ _, argField_append _ _⟩
theorem setPosition (n : Word) : Statement (.setPosition n) := ⟨opField_append _ _, argField_append _ _⟩
theorem getMillisBetweenRotations : Statement .getMillisBetweenRotations := ⟨opField_append _ _, argField_append _ _⟩
theorem getRpm : Statement .getRpm := ⟨opField_append _ _, argField_append _ _⟩

end Sys2Proof.Laws.OpField
end

