-- ==== Sys2Proof/Laws/Run.lean ====
section
/-! SUPPORT. The first steps of a run, and that `State.run` is the host's own run of the core. -/

namespace Sys2Proof.Machine

/-- One step of the host's run, by the outcome of the machine's step. -/
theorem coreRun_succ (M : Host.Core) (k : Nat) (s : M.State) :
    (∀ t, M.step s = .next t → M.run (k + 1) s = M.run k t) ∧
    (∀ f, M.step s = .fault f → M.run (k + 1) s = .fault f) ∧
    (∀ r, M.step s = .refused r → M.run (k + 1) s = .refused r) := by
  refine ⟨?_, ?_, ?_⟩ <;> intro t h <;> simp only [Host.Core.run, h]

theorem run_eq_core_run (k : Nat) (s : State) : State.run k s = Host.Core.run Sys2Proof.core k s := by
  induction k generalizing s with
  | zero => rfl
  | succ k ih =>
    obtain ⟨hn, hf, hr⟩ := coreRun_succ Sys2Proof.core k s
    rw [State.run]
    cases h : step s with
    | next t => exact (ih t).trans (hn t h).symm
    | fault f => exact (hf f h).symm
    | refused r => exact (hr r h).symm

theorem runSteps_nil (s : State) : s.runSteps [] = .next { s with host := [] } := rfl

/-- A run starts with its first host step, the others pending. -/
theorem runSteps_cons (s : State) (p : Ports) (ps : List Ports) :
    s.runSteps (p :: ps) =
      match step { s with host := p :: ps } with
      | .next t => State.run ps.length t
      | .fault f => .fault f
      | .refused r => .refused r := rfl

end Sys2Proof.Machine
end

