-- ==== Sys2Proof/Tests/Slice0.lean ====
section
/-! SUPPORT. Tests on small states (their expected values are spec/95_test_vectors.md's, or worked out from the rule named) and,
for each statement of Certificates/Slice0/Obligations.lean with hypotheses, a witness that meets them together. -/

open Sys2Proof Sys2Proof.Machine

namespace Sys2Proof.Tests

/-- The next state of an outcome. -/
def nextOf : Host.Outcome State Fault Refusal → Option State
  | .next t => some t
  | .fault _ => none
  | .refused _ => none

/-- The reason of a refusal. -/
def refusalOf : Host.Outcome State Fault Refusal → Option Refusal
  | .next _ => none
  | .fault _ => none
  | .refused r => some r

/-- The input ports in a command step. -/
def portsOf (cmd : CommandWord) (a b : BitVec 1) (now : Word) : Ports :=
  { rst := false, cfgMode := 0, cmd := cmd, pinA := a, pinB := b, nowMs := now }

/-- The input ports in a reset step. -/
def resetPorts (code : BitVec 2) : Ports := { rst := true, cfgMode := code, cmd := 3, pinA := 0, pinB := 1, nowMs := 9 }

/-- The notation `{MODE, RAW, INT, EXT, PREV, LAST, PRIOR}` of 95_test_vectors.md, with the ports of a step. -/
def st (m : LatchMode) (raw : RawState) (int ext prev last prior : Word) (p : Ports) : State :=
  { State.reset with
    mode := m, rawState := raw, internalPos := int, externalPos := ext, prevExternalPos := prev, lastChangeTime := last,
    priorChangeTime := prior, ports := p }

/-- The reset block with steps to come. -/
def presenting (steps : List Ports) : State := { State.reset with host := steps }

/-! ### Checks refuse ill-formed terms -/

theorem test_config_zero_refused : Config.wellFormed { latchesPerRev := 0, rpmSentinel := 0 } = false := by decide
theorem test_config_one_accepted : Config.wellFormed { latchesPerRev := 1, rpmSentinel := 0 } = true := by decide
theorem test_mode_code_zero_refused : modeCodeWellFormed 0b00 = false := by decide
theorem test_op_six_refused : opWellFormed 0b110 = false := by decide
theorem test_op_seven_refused : opWellFormed 0b111 = false := by decide
theorem test_instr_always_wellFormed : Instr.wellFormed (.setPosition 0x80000000) = true := by decide

/-! ### Decoding: words written from R91 and R96, bit by bit -/

theorem test_decode_tick : decode 0b00000000000000000000000000000000000#35 = .ok .tick := by decide
theorem test_decode_tick_arg_ignored : decode 0x000000050#35 = .ok .tick := by decide
theorem test_decode_getPosition : decode 0b00000000000000000000000000000000001#35 = .ok .getPosition := by decide
theorem test_decode_getPosition_arg_ignored : decode 0x7FFFFFFF9#35 = .ok .getPosition := by decide
theorem test_decode_getDirection : decode 0b00000000000000000000000000000000010#35 = .ok .getDirection := by decide
theorem test_decode_setPosition_minus_one : decode 0x7FFFFFFFB#35 = .ok (.setPosition 0xFFFFFFFF) := by decide
theorem test_decode_setPosition_top_bit :
    decode 0b10000000000000000000000000000000011#35 = .ok (.setPosition 0x80000000) := by decide
theorem test_decode_getMillis : decode 0b00000000000000000000000000000000100#35 = .ok .getMillisBetweenRotations := by decide
theorem test_decode_getRpm : decode 0b00000000000000000000000000000000101#35 = .ok .getRpm := by decide
theorem test_decode_reserved_six : decode 0x000000006#35 = .error (.reservedCommand 0b110) := by decide
theorem test_decode_reserved_seven : decode 0x7FFFFFFFF#35 = .error (.reservedCommand 0b111) := by decide
theorem test_decodeTableWord_setPosition : decodeTableWord 40 0x00000002B = some (.setPosition 5) := by decide
theorem test_decodeTableWord_reserved : decodeTableWord 40 6 = none := by decide
theorem test_encode_setPosition_ten : encode (.setPosition 10) = 0x000000053#35 := by decide
theorem test_encode_setPosition_minus_three : encode (.setPosition (-3)) = 0x7FFFFFFEB#35 := by decide

/-! ### Commands -/

/-- The example of R120. -/
theorem test_tick_latch :
    (nextOf (exec .tick (st .fourLatchAt3 2 3 0 0 100 40 (portsOf 0 1 1 130)))).map
      (fun t => (t.internalPos, t.externalPos, t.priorChangeTime, t.lastChangeTime, t.rawState)) =
      some (4, 1, 100, 130, 3) := by decide

/-- Section 2.1, TWO, row 3: a double change into a latch state. -/
theorem test_tick_double_change_latches :
    (nextOf (exec .tick (st .twoLatchAt0And3 0 12 6 0 5 1 (portsOf 0 1 1 50)))).map
      (fun t => (t.internalPos, t.externalPos, t.lastChangeTime, t.priorChangeTime)) = some (12, 6, 50, 5) := by decide

/-- The example of R150. -/
theorem test_getPosition_negative :
    (nextOf (exec .getPosition (st .fourLatchAt0 3 5 (-7) 0 0 0 (portsOf 1 0 0 0)))).bind (·.rsp) =
      some { data := 0xFFFFFFF9, undef := false } := by decide

/-- Section 2.8: a forward wrap reads as COUNTERCLOCKWISE. -/
theorem test_getDirection_wrap :
    (nextOf (exec .getDirection (st .fourLatchAt0 3 0 0xE0000000 0x1FFFFFFF 0 0 (portsOf 2 0 0 0)))).map
      (fun t => (t.rsp, t.prevExternalPos)) = some (some { data := 0xFFFFFFFF, undef := false }, 0xE0000000) := by decide

/-- Section 2.8: the comparison is signed. -/
theorem test_getDirection_signed :
    (nextOf (exec .getDirection (st .fourLatchAt0 3 0 5 (-5) 0 0 (portsOf 2 0 0 0)))).bind (·.rsp) =
      some { data := 1, undef := false } := by decide

/-- Section 2.7: a negative INTERNAL_POS keeps its phase. -/
theorem test_setPosition_negative_phase :
    (nextOf (exec (.setPosition 5) (st .fourLatchAt0 3 (-2) 0 77 0 0 (portsOf 3 0 0 0)))).map
      (fun t => (t.internalPos, t.externalPos, t.prevExternalPos)) = some (22, 5, 5) := by decide

/-- Section 2.7: an operand out of range in the two-latch mode. -/
theorem test_setPosition_out_of_range :
    (nextOf (exec (.setPosition 0xBFFFFFFF) (st .twoLatchAt0And3 3 1 0 77 0 0 (portsOf 3 0 0 0)))).map
      (fun t => (t.internalPos, t.externalPos)) = some (0x7FFFFFFF, 0xBFFFFFFF) := by decide

/-- Section 2.9: the clock wrapped. -/
theorem test_getMillis_wrap :
    (nextOf (exec .getMillisBetweenRotations (st .fourLatchAt0 3 0 0 0 10 0xFFFFFFF0 (portsOf 4 0 0 0)))).bind (·.rsp) =
      some { data := 26, undef := false } := by decide

/-- Section 2.10: the floor of 60000 / 140. -/
theorem test_getRpm_floor :
    (nextOf (exec .getRpm (st .fourLatchAt0 3 0 0 0 1000 993 (portsOf 5 0 0 1000)))).bind (·.rsp) =
      some { data := 428, undef := false } := by decide

/-- Section 2.10: the sentinel, with RPM_SENTINEL = 0xFFFFFFFF. -/
theorem test_getRpm_sentinel :
    (nextOf (exec .getRpm
      { st .fourLatchAt0 3 0 0 0 500 500 (portsOf 5 0 0 500) with cfg := { latchesPerRev := 20, rpmSentinel := 0xFFFFFFFF } })).bind
        (·.rsp) = some { data := 0xFFFFFFFF, undef := true } := by decide

/-! ### Steps -/

/-- Section 2.11: reset wins over a command presented with it. -/
theorem test_reset_beside_command :
    (nextOf (step (presenting [resetPorts 0b01]))).map (fun t => (t.mode, t.rawState, t.rsp)) =
      some (.fourLatchAt3, 3, none) := by decide

theorem test_reset_reserved_mode : refusalOf (step (presenting [resetPorts 0b00])) = some .reservedMode := by decide

/-- Section 2.11: a reserved code. -/
theorem test_step_reserved_command :
    refusalOf (step (presenting [portsOf 6 0 0 0])) = some (.reservedCommand 0b110) := by decide

/-- Section 2.3: the first TICK after reset in the default mode, with both lines low. -/
theorem test_step_first_tick :
    (nextOf (step (presenting [portsOf 0 0 0 40]))).map (fun t => (t.internalPos, t.lastChangeTime, t.rawState)) =
      some (0, 40, 0) := by decide

theorem test_fetchWord_runs :
    (nextOf (step (State.reset.withFetchWord 40 0x00000002B))).map (·.externalPos) = some 5 := by decide

/-! ### Program lines (R101; the lines are P1's to P3's) -/

theorem test_parse_tick : parseLine "TICK          @ a=1 b=0 now=0xFFFFFFF8 ; wraps" = .step (.tick 1 0 0xFFFFFFF8) := by decide
theorem test_parse_reset : parseLine "RESET mode=TWO_LATCH_AT_0_AND_3" = .step (.reset (some .twoLatchAt0And3)) := by decide
theorem test_parse_reset_default : parseLine "RESET" = .step (.reset none) := by decide
theorem test_parse_setPosition_minus_one : parseLine "SET_POSITION -1" = .step (.setPosition 0xFFFFFFFF) := by decide
theorem test_parse_setPosition_too_large : parseLine "SET_POSITION 2147483648" = .notALine := by decide
theorem test_parse_comment : parseLine "  ; nothing" = .blank := by decide

/-! ### Witnesses: states and operands that meet a statement's hypotheses together -/

theorem witness_ResetStepConstructsTheBlock :
    ((presenting [resetPorts 0b00]).host = [resetPorts 0b00] ∧ (resetPorts 0b00).rst = true ∧
      1 ≤ (presenting [resetPorts 0b00]).cfg.latchesPerRev ∧ (resetPorts 0b00).cfgMode = 0b00#2) ∧
    ((resetPorts 0b01).cfgMode = modeCode .fourLatchAt3 ∧ (resetPorts 0b10).cfgMode = modeCode .fourLatchAt0 ∧
      (resetPorts 0b11).cfgMode = modeCode .twoLatchAt0And3) := by decide

theorem witness_ResetErasesThePast :
    State.reset.cfg = (st .fourLatchAt3 1 7 8 9 10 11 (portsOf 0 0 0 0)).cfg ∧ (resetPorts 0b10).rst = true := by decide

theorem witness_DecodeByOpField :
    (0x000000050#35).extractLsb' 0 3 = 0b000#3 ∧ (0x7FFFFFFF9#35).extractLsb' 0 3 = 0b001#3 ∧
    (0x000000002#35).extractLsb' 0 3 = 0b010#3 ∧ (0x7FFFFFFFB#35).extractLsb' 0 3 = 0b011#3 ∧
    (0x000000004#35).extractLsb' 0 3 = 0b100#3 ∧ (0x000000005#35).extractLsb' 0 3 = 0b101#3 ∧
    (0x000000006#35).extractLsb' 0 3 = 0b110#3 ∧ (0x7FFFFFFFF#35).extractLsb' 0 3 = 0b111#3 := by decide

theorem witness_DecodeEncodeAgree :
    (Instr.setPosition 0x80000000).wellFormed = true ∧ decode 0x7FFFFFFF9#35 = .ok .getPosition ∧
    decode 0x7FFFFFFFB#35 = .ok (.setPosition 0xFFFFFFFF) := by decide

theorem witness_StepRunsTheDecodedCommand :
    (presenting [portsOf 0x7FFFFFFFB 0 0 0]).host = [portsOf 0x7FFFFFFFB 0 0 0] ∧
    (presenting [portsOf 0x7FFFFFFFB 0 0 0]).Ready ∧ (portsOf 0x7FFFFFFFB 0 0 0).rst = false ∧
    decode (portsOf 0x7FFFFFFFB 0 0 0).cmd = .ok (.setPosition 0xFFFFFFFF) := by decide

theorem witness_FetchWordRunsTheInstruction :
    State.reset.Ready ∧ State.reset.host = [] ∧ (presenting [resetPorts 0b01]).Ready ∧
    (presenting [resetPorts 0b01]).host = [resetPorts 0b01] := by decide

theorem witness_ReservedCommandsRefused :
    ((presenting [portsOf 6 0 0 0]).host = [portsOf 6 0 0 0] ∧ (presenting [portsOf 6 0 0 0]).Ready ∧
      (portsOf 6 0 0 0).rst = false ∧ opField (portsOf 6 0 0 0).cmd = 0b110#3) ∧
    opField (portsOf 0x7FFFFFFFF 0 0 0).cmd = 0b111#3 ∧ opField 0x7FFFFFFFD#35 ≠ 0b110#3 ∧ opField 0x7FFFFFFFD#35 ≠ 0b111#3 := by
  decide

theorem witness_CommandBeforeResetRefused :
    ({ presenting [portsOf 0 0 0 0] with constructed := false } : State).host = [portsOf 0 0 0 0] ∧
    (portsOf 0 0 0 0).rst = false ∧ ({ presenting [portsOf 0 0 0 0] with constructed := false } : State).constructed = false ∧
    1 ≤ ({ presenting [portsOf 0 0 0 0] with constructed := false } : State).cfg.latchesPerRev := by decide

theorem witness_ZeroLatchesPerRevRefused :
    ({ presenting [portsOf 5 0 0 0] with cfg := { latchesPerRev := 0, rpmSentinel := 0 } } : State).host = [portsOf 5 0 0 0] ∧
    ({ presenting [portsOf 5 0 0 0] with cfg := { latchesPerRev := 0, rpmSentinel := 0 } } : State).cfg.latchesPerRev = 0 := by
  decide

theorem witness_StepStopsOnlyWhereRefused :
    step State.reset = .refused .noStepPresented ∧ step (presenting [resetPorts 0b00]) = .refused .reservedMode ∧
    step (presenting [portsOf 7 1 1 0]) = .refused (.reservedCommand 0b111) := ⟨rfl, rfl, rfl⟩

theorem witness_RefusalMarkStays :
    (step (MarkedState.mk (presenting [portsOf 7 1 1 0]) none).state = .refused (.reservedCommand 0b111) ∧
      Refusal.reservedCommand 0b111 ≠ .noStepPresented ∧ (MarkedState.mk (presenting [portsOf 7 1 1 0]) none).mark = none) ∧
    (MarkedState.mk (presenting [portsOf 1 0 0 0]) (some .reservedMode)).mark = some .reservedMode :=
  ⟨⟨rfl, by decide, rfl⟩, rfl⟩

theorem witness_TransitionTableProperties :
    ((3 : RawState) ^^^ 2 = 1 ∨ (3 : RawState) ^^^ 2 = 2) ∧ ((3 : RawState) ^^^ 1 = 1 ∨ (3 : RawState) ^^^ 1 = 2) ∧
    (1 : RawState) ^^^ 2 = 3 := by decide

theorem witness_TickUnchangedSampleWritesNothing :
    (st .fourLatchAt3 2 12 3 0 5 1 (portsOf 0 0 1 50)).ports.pinB ++ (st .fourLatchAt3 2 12 3 0 5 1 (portsOf 0 0 1 50)).ports.pinA =
      (st .fourLatchAt3 2 12 3 0 5 1 (portsOf 0 0 1 50)).rawState := by decide

theorem witness_TickCountsAndLatches :
    ((st .fourLatchAt0 1 12 3 0 5 1 (portsOf 0 1 1 50)).ports.pinB ++ (st .fourLatchAt0 1 12 3 0 5 1 (portsOf 0 1 1 50)).ports.pinA =
        (3 : RawState) ∧ (3 : RawState) ≠ (st .fourLatchAt0 1 12 3 0 5 1 (portsOf 0 1 1 50)).rawState ∧
      (11 : Word) = (st .fourLatchAt0 1 12 3 0 5 1 (portsOf 0 1 1 50)).internalPos + (lut ((1 : RawState) ++ (3 : RawState))).signExtend 32 ∧
      isLatch .fourLatchAt0 3 = false) ∧
    ((st .fourLatchAt3 1 0x80000000 0 0 5 1 (portsOf 0 1 1 50)).ports.pinB ++
        (st .fourLatchAt3 1 0x80000000 0 0 5 1 (portsOf 0 1 1 50)).ports.pinA = (3 : RawState) ∧
      (3 : RawState) ≠ (st .fourLatchAt3 1 0x80000000 0 0 5 1 (portsOf 0 1 1 50)).rawState ∧
      (0x7FFFFFFF : Word) = 0x80000000 + (lut ((1 : RawState) ++ (3 : RawState))).signExtend 32 ∧ isLatch .fourLatchAt3 3 = true) := by
  decide

theorem witness_TicksAccumulateTheTable :
    State.reset.Ready ∧ TicksAt [portsOf 0 1 0 5, portsOf 0x7FFFFFFF8 0 0 6] [1, 0] :=
  ⟨by decide, by decide, by decide, trivial⟩

/-- Both directions, at the ends of the range without a wrap, with the positions in sync. -/
theorem witness_OneDetentMovesThePositionByOne :
    ((st .twoLatchAt0And3 0 0x7FFFFFFD 0x3FFFFFFE 0 0 0 (portsOf 0 0 0 0)).Ready ∧ isLatch .twoLatchAt0And3 0 = true ∧
      (st .twoLatchAt0And3 0 0x7FFFFFFD 0x3FFFFFFE 0 0 0 (portsOf 0 0 0 0)).InSync ∧
      (0x7FFFFFFD#32).toInt + 1 * 2 ^ shift .twoLatchAt0And3 < 2 ^ 31 ∧
      -2 ^ 31 ≤ (0x7FFFFFFD#32).toInt + 1 * 2 ^ shift .twoLatchAt0And3 ∧
      TicksAt [portsOf 0 0 1 1, portsOf 0 1 1 2] (travel forwardOf (2 ^ shift .twoLatchAt0And3) 0)) ∧
    ((st .fourLatchAt0 0 0x80000004 0xE0000001 0 0 0 (portsOf 0 0 0 0)).Ready ∧ isLatch .fourLatchAt0 0 = true ∧
      (st .fourLatchAt0 0 0x80000004 0xE0000001 0 0 0 (portsOf 0 0 0 0)).InSync ∧
      -2 ^ 31 ≤ (0x80000004#32).toInt + -1 * 2 ^ shift .fourLatchAt0 ∧
      (0x80000004#32).toInt + -1 * 2 ^ shift .fourLatchAt0 < 2 ^ 31 ∧
      TicksAt [portsOf 0 1 0 1, portsOf 0 1 1 2, portsOf 0 0 1 3, portsOf 0 0 0 4] (travel backwardOf (2 ^ shift .fourLatchAt0) 0)) :=
  ⟨⟨by decide, by decide, by decide, by decide, by decide, by decide, by decide, trivial⟩,
   ⟨by decide, by decide, by decide, by decide, by decide, by decide, by decide, by decide, by decide, trivial⟩⟩

theorem witness_FirstDetentAfterReset :
    1 ≤ State.reset.cfg.latchesPerRev ∧
    (LatchMode.fourLatchAt0, ([2, 0] : List RawState), (-2 : Int), (-1 : Int)) ∈
      [ (LatchMode.fourLatchAt3, ([1, 0, 2, 3] : List RawState), (4 : Int), (1 : Int)), (LatchMode.fourLatchAt3, [2, 0, 1, 3], -4, -1),
        (LatchMode.fourLatchAt0, [1, 0], 2, 0), (LatchMode.fourLatchAt0, [2, 0], -2, -1),
        (LatchMode.twoLatchAt0And3, [1, 0], 2, 1), (LatchMode.twoLatchAt0And3, [2, 0], -2, -1)] ∧
    TicksAt [portsOf 0 0 1 7, portsOf 0 0 0 8] [2, 0] :=
  ⟨by decide, by decide, by decide, by decide, trivial⟩

theorem witness_FirstTickAfterReset :
    1 ≤ State.reset.cfg.latchesPerRev ∧ (portsOf 0 0 0 40).TickAt 0 ∧ (portsOf 0 1 0 40).TickAt 1 ∧ (portsOf 0 0 1 40).TickAt 2 ∧
    (portsOf 0 1 1 40).TickAt 3 := by decide

theorem witness_BounceCancelsButLatches :
    (st .fourLatchAt0 0 2 0 0 110 100 (portsOf 0 0 0 0)).Ready ∧ (2 : RawState) ≠ 0 ∧ (portsOf 0 0 1 111).TickAt 2 ∧
    (portsOf 0 0 0 112).TickAt 0 ∧ isLatch .fourLatchAt0 0 = true ∧ (st .fourLatchAt0 0 2 0 0 110 100 (portsOf 0 0 0 0)).InSync := by
  decide

theorem witness_MissedSamplesMiscount :
    pinSample (portsOf 0 0 1 0) = forwardOf 0 ∧ pinSample (portsOf 0 1 1 0) = forwardOf (forwardOf 0) ∧
    pinSample (portsOf 0 1 0 0) = forwardOf (forwardOf (forwardOf 0)) ∧
    pinSample (portsOf 0 0 0 0) = forwardOf (forwardOf (forwardOf (forwardOf 0))) ∧ pinSample (portsOf 0 1 0 0) = backwardOf 0 := by
  decide

theorem witness_WrapAtTheLimits :
    (pinSample (portsOf 0 1 1 0) ≠ (2 : RawState) ∧
      (st .fourLatchAt3 2 0x7FFFFFFF 0x1FFFFFFF 0x1FFFFFFF 0 0 (portsOf 0 1 1 0)).internalPos = 0x7FFFFFFF ∧
      lut (lutKey 2 (pinSample (portsOf 0 1 1 0))) = 1 ∧ isLatch .fourLatchAt3 (pinSample (portsOf 0 1 1 0)) = true ∧
      shift .fourLatchAt3 = 2 ∧
      (st .fourLatchAt3 2 0x7FFFFFFF 0x1FFFFFFF 0x1FFFFFFF 0 0 (portsOf 0 1 1 0)).prevExternalPos = 0x1FFFFFFF) ∧
    (pinSample (portsOf 0 1 1 0) ≠ (1 : RawState) ∧
      (st .fourLatchAt3 1 0x80000000 0xE0000000 0xE0000000 0 0 (portsOf 0 1 1 0)).internalPos = 0x80000000 ∧
      lut (lutKey 1 (pinSample (portsOf 0 1 1 0))) = -1 ∧
      (st .fourLatchAt3 1 0x80000000 0xE0000000 0xE0000000 0 0 (portsOf 0 1 1 0)).prevExternalPos = 0xE0000000) := by decide

theorem witness_GetPositionRespondsExternalPos : (0x7FFFFFFF9#35).extractLsb' 0 3 = 0b001#3 := by decide

theorem witness_SetPositionRewritesThePositions :
    (0x7FFFFFFFB#35).extractLsb' 0 3 = 0b011#3 ∧
    ((State.reset.mode = .fourLatchAt3 ∨ State.reset.mode = .fourLatchAt0) ∧ 2 = 2 ∧ (0x3 : Word) = 0x3) ∧
    ((State.reset.construct .twoLatchAt0And3).mode = .twoLatchAt0And3 ∧ 1 = 1 ∧ (0x1 : Word) = 0x1) := by decide

theorem witness_SetPositionBits : 1 < shift State.reset.mode ∧ shift State.reset.mode ≤ 2 ∧ shift State.reset.mode ≤ 31 ∧ 31 < 32 := by
  decide

/-- Section 1.3 E5, the last instance: from INTERNAL_POS 13, the offset is 5 - 3 = 2. -/
theorem witness_SetPositionOffsetsLaterPositions :
    (st .fourLatchAt3 1 13 3 0 0 0 (portsOf 0 0 0 0)).Ready ∧
    (∃ u, exec (.setPosition 5) (st .fourLatchAt3 1 13 3 0 0 0 (portsOf 0 0 0 0)) = .next u) ∧
    (2 : Int) = (5#32).toInt - ((13#32).sshiftRight (shift .fourLatchAt3)).toInt ∧
    TicksAt [portsOf 0 0 0 58, portsOf 0 0 1 59, portsOf 0 1 1 60] ([0, 2] ++ [3]) ∧ ([0, 2] : List RawState).getLastD 1 ≠ 3 ∧
    isLatch .fourLatchAt3 3 = true ∧
    (∃ t, (st .fourLatchAt3 1 13 3 0 0 0 (portsOf 0 0 0 0)).runSteps [portsOf 0 0 0 58, portsOf 0 0 1 59, portsOf 0 1 1 60] = .next t ∧
      -2 ^ (31 - shift .fourLatchAt3) ≤ t.externalPos.toInt + 2 ∧ t.externalPos.toInt + 2 < 2 ^ (31 - shift .fourLatchAt3)) :=
  ⟨by decide, ⟨_, rfl⟩, by decide, ⟨by decide, by decide, by decide, trivial⟩, by decide, by decide, ⟨_, rfl, by decide, by decide⟩⟩

theorem witness_GetDirectionReportsAndConsumes : (0x000000002#35).extractLsb' 0 3 = 0b010#3 := by decide

theorem witness_SideEffectsOfReads :
    (∃ t, exec .getMillisBetweenRotations State.reset = .next t) ∧ (∃ t, exec .getRpm State.reset = .next t) ∧
    pinSample State.reset.ports = State.reset.rawState ∧ (∃ t, exec .tick State.reset = .next t) :=
  ⟨⟨_, rfl⟩, ⟨_, rfl⟩, by decide, ⟨_, rfl⟩⟩

theorem witness_DirectionIsNetChangeSinceSnapshot :
    (∃ t, exec .getDirection State.reset = .next t) ∧ (∃ t, exec (.setPosition 9) State.reset = .next t) ∧
    State.reset.Ready ∧ State.reset.prevExternalPos = State.reset.externalPos ∧
    (∀ p ∈ [portsOf 0 0 1 7, portsOf 0 0 0 8, portsOf 5 0 0 9],
      p.legal = true ∧ p.rst = false ∧ opField p.cmd ≠ 0b010#3 ∧ opField p.cmd ≠ 0b011#3) :=
  ⟨⟨_, rfl⟩, ⟨_, rfl⟩, by decide, by decide, by decide⟩

theorem witness_GetMillisRespondsTheInterval : (0x000000004#35).extractLsb' 0 3 = 0b100#3 := by decide

/-- The clock wraps once between the two readings, and at the longest interval. -/
theorem witness_IntervalSurvivesClockWrap :
    ((0xFFFFFFF0 : Word) = clockReading 0xFFFFFFF0 ∧ (10 : Word) = clockReading 0x10000000A ∧ 0xFFFFFFF0 ≤ 0x10000000A ∧
      0x10000000A - 0xFFFFFFF0 < 2 ^ 32) ∧
    ((1 : Word) = clockReading 1 ∧ (0 : Word) = clockReading 0x100000000 ∧ 0x100000000 - 1 < 2 ^ 32) := by decide

theorem witness_GetRpmRespondsTheQuotient :
    (0x000000005#35).extractLsb' 0 3 = 0b101#3 ∧ 1 ≤ State.reset.cfg.latchesPerRev ∧
    26 = ((10#32).toNat + (2 ^ 32 - (0xFFFFFFF0#32).toNat)) % 2 ^ 32 ∧ 10 = ((20#32).toNat + (2 ^ 32 - (10#32).toNat)) % 2 ^ 32 ∧
    26 = max 26 10 := by decide

/-- The one hypothesis of EveryCommandCompletes, SentinelExactlyAtZeroInterval and RpmIsBounded. -/
theorem witness_admitted_configuration : 1 ≤ State.reset.cfg.latchesPerRev := by decide

/-- The boundary of section 2.10: 3000 ms gives 1, 3001 ms gives 0. -/
theorem witness_StaleSpeedFallsToZero :
    1 ≤ State.reset.cfg.latchesPerRev ∧ (3000#32 - 0#32).toNat ≤ (3001#32 - 0#32).toNat ∧ 60000 < (3001#32 - 0#32).toNat * 20 ∧
    3000 < (3001#32 - 0#32).toNat ∧ State.reset.cfg.latchesPerRev = 20 ∧
    (nextOf (exec .getRpm (st .fourLatchAt0 3 0 0 0 1000 990 (portsOf 5 0 0 4000)))).bind (·.rsp) =
      some { data := 1, undef := false } := by decide

theorem witness_BackwardClockGivesZero :
    (99#32).toNat < (100#32).toNat ∧ (100#32).toNat - (99#32).toNat ≤ 2 ^ 31 ∧
    (0#32).toNat < (0x80000000#32).toNat ∧ (0x80000000#32).toNat - (0#32).toNat ≤ 2 ^ 31 := by decide

theorem witness_RpmAgreesWithFloatingPoint :
    1 ≤ State.reset.cfg.latchesPerRev ∧
    140 = (rpmInterval (st .fourLatchAt0 3 0 0 0 1000 993 (portsOf 5 0 0 1000))).toNat *
      (st .fourLatchAt0 3 0 0 0 1000 993 (portsOf 5 0 0 1000)).cfg.latchesPerRev ∧
    1 ≤ 140 ∧ 140 < 2 ^ 32 ∧ (140 < 2 ^ 24 → (140 : ℚ) = (140 : Nat)) ∧ |(140 : ℚ) - (140 : Nat)| ≤ (140 : Nat) / 2 ^ 24 ∧
    |(60000 : ℚ) / 140 - 60000 / 140| ≤ 60000 / 140 / 2 ^ 24 ∧ (∀ k : ℤ, (60000 : ℚ) / 140 = k → (60000 : ℚ) / 140 = k) :=
  ⟨by decide, by decide, by decide, by decide, fun _ => by norm_num, by norm_num, by norm_num, fun _ h => h⟩

theorem witness_LegalRunsComplete :
    State.reset.Ready ∧ (∀ p ∈ [resetPorts 0b01, portsOf 0 0 1 1, portsOf 0x7FFFFFFFB 0 0 0], p.legal = true) := by decide

theorem witness_ResponsesByCommand :
    (∃ t, exec .getRpm State.reset = .next t ∧ t.rsp = some { data := 0, undef := true }) ∧ (∃ t, exec .tick State.reset = .next t) :=
  ⟨⟨_, rfl, by decide⟩, ⟨_, rfl⟩⟩

theorem witness_InputsUsedByTheirReadersOnly :
    (Instr.getRpm ≠ .tick ∧ (portsOf 0 0 0 0).nowMs = State.reset.ports.nowMs ∧ ∃ t, exec .getRpm State.reset = .next t) ∧
    (isLatch State.reset.mode (pinSample State.reset.ports) = false ∧ ∃ t, exec .tick State.reset = .next t) ∧
    (pinSample (portsOf 0 0 0 9) = 0 ∧ isLatch .fourLatchAt0 0 = true ∧
      ∃ t, exec .tick (st .fourLatchAt0 0 2 0 0 110 100 (portsOf 0 0 0 9)) = .next t) :=
  ⟨⟨by decide, by decide, ⟨_, rfl⟩⟩, ⟨by decide, ⟨_, rfl⟩⟩, ⟨by decide, by decide, ⟨_, rfl⟩⟩⟩

theorem witness_HiddenStateUnseenByQueries :
    Instr.getDirection ≠ .tick ∧ (∀ n : Word, Instr.getDirection ≠ .setPosition n) ∧ ∃ t, exec .getDirection State.reset = .next t :=
  ⟨by decide, fun _ h => (nomatch h), ⟨_, rfl⟩⟩

/-- Steps with a next state, for the statements about every step: a reset, a latch event, a SET_POSITION. -/
theorem witness_ModeFixedBetweenResets : ∃ t, step (presenting [resetPorts 0b11]) = .next t := ⟨_, rfl⟩
theorem witness_OnlyLatchEventsChangeTimestamps : ∃ t, step (presenting [portsOf 0 0 0 40]) = .next t := ⟨_, rfl⟩
theorem witness_OnlyTwoCommandsChangeTheSnapshot : ∃ t, step (presenting [portsOf 0x7FFFFFFFB 0 0 0]) = .next t := ⟨_, rfl⟩

theorem witness_PositionsInSyncUntilUnlatchedMove :
    ((presenting [portsOf 0 0 0 40]).host = [portsOf 0 0 0 40] ∧ (∃ t, step (presenting [portsOf 0 0 0 40]) = .next t) ∧
      (portsOf 0 0 0 40).Presents 0b000#3 ∧ pinSample (portsOf 0 0 0 40) ≠ (presenting [portsOf 0 0 0 40]).rawState ∧
      isLatch (presenting [portsOf 0 0 0 40]).mode (pinSample (portsOf 0 0 0 40)) = true ∧ (presenting [portsOf 0 0 0 40]).InSync) ∧
    ((portsOf 0x0FFFFFFFB 0 0 0).Presents 0b011#3 ∧ InRange .fourLatchAt0 (argField (portsOf 0x0FFFFFFFB 0 0 0).cmd) ∧
      argField (portsOf 0x0FFFFFFFB 0 0 0).cmd = 0x1FFFFFFF) ∧
    (resetPorts 0b10).rst = true :=
  ⟨⟨rfl, ⟨_, rfl⟩, by decide, by decide, by decide, by decide⟩, ⟨by decide, by decide, by decide⟩, rfl⟩

theorem witness_StepKeepsPhaseParity :
    (presenting [portsOf 0 1 0 40]).PhaseAgrees ∧ ∃ t, step (presenting [portsOf 0 1 0 40]) = .next t := ⟨by decide, ⟨_, rfl⟩⟩

theorem witness_ProgramLinesAreLegalSteps :
    (∃ n : Word, Line.setPosition 5 = .setPosition n) ∧ (∃ (a b : BitVec 1) (now : Word), Line.tick 1 0 7 = .tick a b now) ∧
    (∃ now : Word, Line.getRpm 160 = .getRpm now) ∧ (∃ m, Line.reset none = .reset m) ∧
    (∃ m : LatchMode, Line.reset (some .fourLatchAt3) = .reset (some m)) :=
  ⟨⟨5, rfl⟩, ⟨1, 0, 7, rfl⟩, ⟨160, rfl⟩, ⟨none, rfl⟩, ⟨.fourLatchAt3, rfl⟩⟩

end Sys2Proof.Tests
end

section
/-! The transition table and the functions of MODE (spec/10_state.md R30, R32). -/

namespace Sys2Proof.Machine

/-- Widening a table entry to a word keeps its value (R11, R30). -/
theorem delta_toInt (key : LutKey) : (delta key).toInt = (lut key).toInt :=
  BitVec.toInt_signExtend_of_le (by decide)

@[simp] theorem shift_fourLatchAt3 : shift .fourLatchAt3 = 2 := rfl
@[simp] theorem shift_fourLatchAt0 : shift .fourLatchAt0 = 2 := rfl
@[simp] theorem shift_twoLatchAt0And3 : shift .twoLatchAt0And3 = 1 := rfl

@[simp] theorem isLatch_fourLatchAt3_iff (raw : RawState) : isLatch .fourLatchAt3 raw = true ↔ raw = 3 :=
  beq_iff_eq

@[simp] theorem isLatch_fourLatchAt0_iff (raw : RawState) : isLatch .fourLatchAt0 raw = true ↔ raw = 0 :=
  beq_iff_eq

@[simp] theorem isLatch_twoLatchAt0And3_iff (raw : RawState) :
    isLatch .twoLatchAt0And3 raw = true ↔ raw = 0 ∨ raw = 3 := by
  simp [isLatch]

/-- Settles O16: the sixteen entries are read off the table; the widening keeps the value of every entry. -/
theorem transitionTableEntries : Obligations.TransitionTableEntries := by
  unfold Obligations.TransitionTableEntries
  exact ⟨by decide, delta_toInt⟩

/-- Settles O17, from the equations of `shift` and `isLatch` for each mode. -/
theorem modeFunctionsAreTheTable : Obligations.ModeFunctionsAreTheTable := by
  unfold Obligations.ModeFunctionsAreTheTable
  exact ⟨shift_fourLatchAt3, shift_fourLatchAt0, shift_twoLatchAt0And3,
    isLatch_fourLatchAt3_iff, isLatch_fourLatchAt0_iff, isLatch_twoLatchAt0And3_iff⟩

end Sys2Proof.Machine
end

section
/-! The answer of GET_RPM (spec/43_speed.md R193, R196, R197), and what one step does once its host step is taken (R97). -/

namespace Sys2Proof.Machine

/-- What GET_RPM answers under an admitted configuration (R193). -/
def rpmResponse (s : State) : Response :=
  if rpmUndefined (rpmInterval s) then { data := s.cfg.rpmSentinel, undef := true }
  else { data := rpmQuotient (rpmInterval s) s.cfg.latchesPerRev, undef := false }

theorem execGetRpm_of_admitted {s : State} (hw : s.cfg.wellFormed = true) :
    execGetRpm s = .next { s with rsp := some (rpmResponse s) } := by
  cases hu : rpmUndefined (rpmInterval s) <;>
    simp [execGetRpm, rpmResponse, hw, hu, State.respond, State.respondUndef]

theorem execGetRpm_of_zero {s : State} (hw : s.cfg.wellFormed = false) :
    execGetRpm s = .refused .reservedConfiguration := by
  simp [execGetRpm, hw]

/-- What a step does on the ports as sampled: the reset, or the decoded command (R97). -/
def perform (s : State) : Host.Outcome State Fault Refusal :=
  if s.ports.rst then resetBlock s.ports.cfgMode s
  else
    match fetchCommand s with
    | .error r => .refused r
    | .ok i => exec i s

theorem step_of_takeStep_ok {s sampled : State} (h : takeStep s = .ok sampled) : step s = perform sampled := by
  unfold step
  rw [h]
  rfl

theorem step_of_takeStep_error {s : State} {r : Refusal} (h : takeStep s = .error r) : step s = .refused r := by
  unfold step
  rw [h]

end Sys2Proof.Machine
end

section
/-! Runs of host steps (spec/20_memory.md R78): a step takes the head of what the host presents and never reads the rest. -/

namespace Sys2Proof.Machine

/-- Go on with `k` from the next state; a fault or a refusal ends the run. -/
def andThen (o : Host.Outcome State Fault Refusal) (k : State → Host.Outcome State Fault Refusal) :
    Host.Outcome State Fault Refusal :=
  match o with
  | .next t => k t
  | .fault f => .fault f
  | .refused r => .refused r

@[simp] theorem andThen_refused (r : Refusal) (k : State → Host.Outcome State Fault Refusal) :
    andThen (.refused r) k = .refused r := rfl

theorem andThen_assoc (o : Host.Outcome State Fault Refusal) (k l : State → Host.Outcome State Fault Refusal) :
    andThen (andThen o k) l = andThen o (fun t => andThen (k t) l) := by
  cases o <;> rfl

/-- The outcome with `later` as what the host presents next. -/
def thenPresent (later : List Ports) (o : Host.Outcome State Fault Refusal) : Host.Outcome State Fault Refusal :=
  andThen o fun t => .next { t with host := later }

variable (s : State) (later : List Ports)

theorem latchGate_setHost (cur : RawState) :
    latchGate cur { s with host := later } = { latchGate cur s with host := later } := by
  unfold latchGate
  split <;> rfl

theorem execTick_setHost : execTick { s with host := later } = thenPresent later (execTick s) := by
  by_cases h : pinSample s.ports = s.rawState
  · have unchanged := (execTick_next_iff s _).2 (.inl ⟨h, rfl⟩)
    rw [unchanged]
    exact (execTick_next_iff _ _).2 (.inl ⟨h, rfl⟩)
  · have counted := (execTick_next_iff s _).2 (.inr ⟨h, rfl⟩)
    rw [counted]
    refine (execTick_next_iff _ _).2 (.inr ⟨h, ?_⟩)
    exact congrArg (fun t => (State.setRawState t (pinSample s.ports)).noResponse)
      (latchGate_setHost (accumulate (pinSample s.ports) s) later (pinSample s.ports)).symm

theorem execGetRpm_setHost : execGetRpm { s with host := later } = thenPresent later (execGetRpm s) := by
  cases hw : s.cfg.wellFormed with
  | false => rw [execGetRpm_of_zero hw, execGetRpm_of_zero (s := { s with host := later }) hw]; rfl
  | true => rw [execGetRpm_of_admitted hw, execGetRpm_of_admitted (s := { s with host := later }) hw]; rfl

/-- No command reads or writes the steps still to come. -/
theorem exec_setHost (i : Instr) : exec i { s with host := later } = thenPresent later (exec i s) := by
  cases i with
  | tick => exact execTick_setHost s later
  | getRpm => exact execGetRpm_setHost s later
  | getPosition | getDirection | setPosition n | getMillisBetweenRotations => rfl

theorem resetBlock_setHost (code : BitVec 2) :
    resetBlock code { s with host := later } = thenPresent later (resetBlock code s) := by
  unfold resetBlock
  cases modeOfCode code <;> rfl

theorem perform_setHost : perform { s with host := later } = thenPresent later (perform s) := by
  have hf : fetchCommand { s with host := later } = fetchCommand s := rfl
  cases hr : s.ports.rst with
  | true => simpa [perform, hr] using resetBlock_setHost s later s.ports.cfgMode
  | false =>
    cases hc : fetchCommand s with
    | error r => simp [perform, thenPresent, hr, hf, hc]
    | ok i => simpa [perform, hr, hf, hc] using exec_setHost s later i

/-- A step spends the first host step, and does not depend on those after it. -/
theorem step_host_cons (p : Ports) :
    step { s with host := p :: later } = thenPresent later (step { s with host := [p] }) := by
  by_cases hk : 1 ≤ s.cfg.latchesPerRev
  · have taken (l : List Ports) : step { s with host := p :: l } = perform (s.sample p l) :=
      step_of_takeStep_ok ((takeStep_ok_iff _ _).2 ⟨p, l, rfl, hk, rfl⟩)
    rw [taken, taken]
    exact perform_setHost (s.sample p []) later
  · have hz : s.cfg.latchesPerRev = 0 := by omega
    have refused (l : List Ports) : step { s with host := p :: l } = .refused .reservedConfiguration :=
      step_of_takeStep_error ((takeStep_error_iff _ _).2 (.inr ⟨List.cons_ne_nil _ _, hz, rfl⟩))
    rw [refused, refused]
    rfl

/-- A run is the step on its first host step, then the run of the others. -/
theorem runSteps_cons_eq (p : Ports) :
    s.runSteps (p :: later) = andThen (step { s with host := [p] }) (·.runSteps later) := by
  rw [runSteps_cons, step_host_cons]
  cases step { s with host := [p] } <;> rfl

theorem runSteps_append (first second : List Ports) :
    s.runSteps (first ++ second) = andThen (s.runSteps first) (·.runSteps second) := by
  induction first generalizing s with
  | nil => rfl
  | cons p first ih =>
    rw [List.cons_append, runSteps_cons_eq, runSteps_cons_eq, andThen_assoc]
    exact congrArg (andThen _) (funext ih)

/-- Settles O46, from `runSteps_append`. -/
theorem runsCompose : Obligations.RunsCompose := by
  unfold Obligations.RunsCompose
  intro s first second
  rw [runSteps_append]
  cases s.runSteps first <;> rfl

end Sys2Proof.Machine
end

section
/-! What repeating a read shows (spec/20_memory.md R77). -/

namespace Sys2Proof.Machine

/-- A GET_DIRECTION right after another finds the snapshot equal to EXTERNAL_POS. -/
theorem execGetDirection_twice (s : State) :
    ∃ t u : State, exec .getDirection s = .next t ∧ exec .getDirection t = .next u ∧
      u.rsp = some { data := 0, undef := false } ∧ u.externalPos = s.externalPos ∧ u.prevExternalPos = s.externalPos := by
  refine ⟨_, _, rfl, rfl, ?_, rfl, rfl⟩
  simp [directionCode_directionOf]

/-- GET_RPM writes the response alone. -/
theorem execGetRpm_frame {s t : State} (h : execGetRpm s = .next t) : t = { s with rsp := t.rsp } := by
  cases hw : s.cfg.wellFormed with
  | false => rw [execGetRpm_of_zero hw] at h; cases h
  | true => rw [execGetRpm_of_admitted hw] at h; cases h; rfl

theorem query_frame {i : Instr} {s t : State}
    (hi : i = .getPosition ∨ i = .getMillisBetweenRotations ∨ i = .getRpm) (h : exec i s = .next t) :
    t = { s with rsp := t.rsp } := by
  rcases hi with rfl | rfl | rfl
  · cases h; rfl
  · cases h; rfl
  · exact execGetRpm_frame h

/-- The two queries that read registers only repeat their answer. -/
theorem register_query_repeats {i : Instr} {s t : State} (hi : i = .getPosition ∨ i = .getMillisBetweenRotations)
    (h : exec i s = .next t) : exec i t = .next t := by
  rcases hi with rfl | rfl <;> cases h <;> rfl

/-- Latch events at 50 and 100 ms and 20 latches per revolution: 60 RPM read at 150 ms, 20 RPM read at 250 ms. -/
theorem execGetRpm_depends_on_clock :
    ∃ (s t u : State) (later : Word), exec .getRpm s = .next t ∧
      exec .getRpm { t with ports := { t.ports with nowMs := later } } = .next u ∧ t.rsp ≠ u.rsp :=
  ⟨{ State.reset with
      lastChangeTime := 100
      priorChangeTime := 50
      ports := { Ports.afterReset with nowMs := 150 } }, _, _, 250, rfl, rfl, by decide⟩

theorem execTick_unchanged {s t : State} (hs : pinSample s.ports = s.rawState) (h : execTick s = .next t) :
    t = { s with rsp := none } := by
  rcases (execTick_next_iff s t).1 h with ⟨_, rfl⟩ | ⟨hne, _⟩
  · rfl
  · exact absurd hs hne

/-- Settles O34, one lemma for each line of R77. -/
theorem sideEffectsOfReads : Obligations.SideEffectsOfReads := by
  unfold Obligations.SideEffectsOfReads
  refine ⟨execGetDirection_twice, ?_, execGetRpm_depends_on_clock, fun _ _ => execTick_unchanged⟩
  intro i s t hi h
  refine ⟨query_frame hi h, fun hne => register_query_repeats ?_ h⟩
  rcases hi with hp | hm | hr
  · exact .inl hp
  · exact .inr hm
  · exact absurd hr hne

end Sys2Proof.Machine
end

section
/-! TICK on a changed sample (spec/40_tick.md R123 to R126). -/

namespace Sys2Proof.Machine

variable {s : State}

/-- A changed sample is counted, passes the latch gate, and becomes RAW_STATE. -/
theorem execTick_changed (hne : pinSample s.ports ≠ s.rawState) :
    execTick s =
      .next ((latchGate (pinSample s.ports) (accumulate (pinSample s.ports) s)).setRawState (pinSample s.ports)).noResponse :=
  (execTick_next_iff s _).2 (.inr ⟨hne, rfl⟩)

theorem execTick_changed_of_not_latch (hne : pinSample s.ports ≠ s.rawState)
    (hl : isLatch s.mode (pinSample s.ports) = false) :
    execTick s = .next ((accumulate (pinSample s.ports) s).setRawState (pinSample s.ports)).noResponse := by
  rw [execTick_changed hne, latchGate_of_not_latch (accumulate _ s) _ hl]

/-- The latch event reads the INTERNAL_POS that this TICK has just written (R124). -/
theorem execTick_changed_of_latch (hne : pinSample s.ports ≠ s.rawState)
    (hl : isLatch s.mode (pinSample s.ports) = true) :
    execTick s =
      .next ((latchEvent (accumulate (pinSample s.ports) s)).setRawState (pinSample s.ports)).noResponse := by
  rw [execTick_changed hne, latchGate_of_latch (accumulate _ s) _ hl]

/-- Settles O20: the two cases of the latch gate; in a latch event the registers are those of `latchEvent_eq` over the sum of
`accumulate_eq`. -/
theorem tickCountsAndLatches : Obligations.TickCountsAndLatches := by
  unfold Obligations.TickCountsAndLatches
  rintro s _ _ rfl hne rfl
  refine ⟨execTick_changed_of_not_latch hne, fun hl => ?_⟩
  have latched := execTick_changed_of_latch hne hl
  rw [latchEvent_eq, accumulate_eq] at latched
  exact latched

end Sys2Proof.Machine
end

section
/-! Every command completes (spec/40_tick.md R122, R128; spec/60_exceptions.md R220). -/

namespace Sys2Proof.Machine

/-- Settles O19: the unchanged-sample case of `execTick_next_iff`. -/
theorem tickUnchangedSampleWritesNothing : Obligations.TickUnchangedSampleWritesNothing := by
  unfold Obligations.TickUnchangedSampleWritesNothing
  exact fun s hs => (execTick_next_iff s _).2 (.inl ⟨hs, rfl⟩)

/-- Only GET_RPM needs the configuration to be an admitted one (R196). -/
theorem exec_completes (i : Instr) {s : State} (hk : 1 ≤ s.cfg.latchesPerRev) : ∃ t, exec i s = .next t := by
  cases i with
  | tick => exact execTick_completes s
  | getRpm => exact ⟨_, execGetRpm_of_admitted ((wellFormed_iff s.cfg).2 hk)⟩
  | getPosition | getDirection | setPosition n | getMillisBetweenRotations => exact ⟨_, rfl⟩

/-- What no command writes. -/
theorem exec_frame {i : Instr} {s t : State} (h : exec i s = .next t) :
    t.cfg = s.cfg ∧ t.constructed = s.constructed ∧ t.mode = s.mode ∧ t.ports = s.ports ∧ t.host = s.host := by
  cases i with
  | tick =>
    obtain ⟨hcfg, hcon, hmode, -, hports, hhost, -⟩ := execTick_frame h
    exact ⟨hcfg, hcon, hmode, hports, hhost⟩
  | getRpm =>
    rw [execGetRpm_frame h]
    exact ⟨rfl, rfl, rfl, rfl, rfl⟩
  | getPosition | getDirection | setPosition n | getMillisBetweenRotations =>
    cases h
    exact ⟨rfl, rfl, rfl, rfl, rfl⟩

/-- Settles O44, from `execTick_completes`, `exec_completes` and `exec_frame`. -/
theorem everyCommandCompletes : Obligations.EveryCommandCompletes := by
  unfold Obligations.EveryCommandCompletes
  refine ⟨execTick_completes, fun i s hk => ?_⟩
  obtain ⟨t, ht⟩ := exec_completes i hk
  exact ⟨t, ht, exec_frame ht⟩

end Sys2Proof.Machine
end

section
/-! The position commands (spec/41_position.md R150 to R153). -/

namespace Sys2Proof.Machine

/-- The op field alone selects GET_POSITION (R94, R96). -/
theorem decode_getPosition_of_opField {w : CommandWord} (h : opField w = 0b001#3) : decode w = .ok .getPosition := by
  simp [decode, h]

/-- SET_POSITION takes its operand from the arg field (R94, R96). -/
theorem decode_setPosition_of_opField {w : CommandWord} (h : opField w = 0b011#3) :
    decode w = .ok (.setPosition (argField w)) := by
  simp [decode, h]

theorem exec_getPosition_eq (s : State) :
    exec .getPosition s = .next { s with rsp := some { data := s.externalPos, undef := false } } := rfl

/-- SET_POSITION for every mode, through `repositioned` (R152). -/
theorem exec_setPosition_eq (n : Word) (s : State) :
    exec (.setPosition n) s = .next
      { s with
        internalPos := repositioned s.mode s.internalPos n
        externalPos := n
        prevExternalPos := n
        rsp := none } := rfl

/-- In the modes with four states per latch, SET_POSITION keeps the low two bits (R151, R154). -/
theorem repositioned_of_shift_two {m : LatchMode} (h : shift m = 2) (x n : Word) :
    repositioned m x n = (n <<< 2) ||| (x &&& 0x3) := by
  simp [repositioned, shl32, subLatchPhase, h]

/-- In the mode with two states per latch, SET_POSITION keeps the low bit (R151, R154). -/
theorem repositioned_of_shift_one {m : LatchMode} (h : shift m = 1) (x n : Word) :
    repositioned m x n = (n <<< 1) ||| (x &&& 0x1) := by
  simp [repositioned, shl32, subLatchPhase, h]

/-- Settles O28, from the decoding of op 0b001 and the state GET_POSITION answers. -/
theorem getPositionRespondsExternalPos : Obligations.GetPositionRespondsExternalPos := by
  unfold Obligations.GetPositionRespondsExternalPos
  exact ⟨fun _ => decode_getPosition_of_opField, exec_getPosition_eq⟩

/-- Settles O29: in each mode the repositioned INTERNAL_POS has that mode's literal shift and mask. -/
theorem setPositionRewritesThePositions : Obligations.SetPositionRewritesThePositions := by
  unfold Obligations.SetPositionRewritesThePositions
  refine ⟨fun _ => decode_setPosition_of_opField, ?_⟩
  rintro s n _ _ (⟨hm, rfl, rfl⟩ | ⟨hm, rfl, rfl⟩)
  · have two : shift s.mode = 2 := by rcases hm with hm | hm <;> simp [hm]
    rw [exec_setPosition_eq, repositioned_of_shift_two two]
  · have one : shift s.mode = 1 := by simp [hm]
    rw [exec_setPosition_eq, repositioned_of_shift_one one]

end Sys2Proof.Machine
end

section
/-! The speed estimator's commands (spec/43_speed.md R190 to R194): the two intervals and the quotient as natural numbers. -/

namespace Sys2Proof.Machine

/-- The op field alone selects GET_MILLIS_BETWEEN_ROTATIONS (R94, R96). -/
theorem decode_getMillis_of_opField {w : CommandWord} (h : opField w = 0b100#3) :
    decode w = .ok .getMillisBetweenRotations := by
  simp [decode, h]

/-- The op field alone selects GET_RPM (R94, R96). -/
theorem decode_getRpm_of_opField {w : CommandWord} (h : opField w = 0b101#3) : decode w = .ok .getRpm := by
  simp [decode, h]

theorem exec_getMillis_eq (s : State) :
    exec .getMillisBetweenRotations s =
      .next { s with rsp := some { data := s.lastChangeTime - s.priorChangeTime, undef := false } } := rfl

/-- Settles O36, from the decoding of op 0b100 and the state GET_MILLIS_BETWEEN_ROTATIONS answers. -/
theorem getMillisRespondsTheInterval : Obligations.GetMillisRespondsTheInterval := by
  unfold Obligations.GetMillisRespondsTheInterval
  exact ⟨fun _ => decode_getMillis_of_opField, exec_getMillis_eq⟩

variable {s : State}

/-- GET_RPM under an admitted configuration (R193, R196). -/
theorem exec_getRpm_eq (hk : 1 ≤ s.cfg.latchesPerRev) :
    exec .getRpm s = .next { s with rsp := some (rpmResponse s) } :=
  execGetRpm_of_admitted ((wellFormed_iff s.cfg).2 hk)

theorem rpmUndefined_iff (t : Word) : rpmUndefined t = true ↔ t.toNat = 0 := by
  simp [rpmUndefined, BitVec.toNat_eq]

theorem rpmResponse_of_zero (h : (rpmInterval s).toNat = 0) :
    rpmResponse s = { data := s.cfg.rpmSentinel, undef := true } :=
  if_pos ((rpmUndefined_iff _).2 h)

theorem rpmResponse_of_ne_zero (h : (rpmInterval s).toNat ≠ 0) :
    rpmResponse s = { data := rpmQuotient (rpmInterval s) s.cfg.latchesPerRev, undef := false } :=
  if_neg (mt (rpmUndefined_iff _).1 h)

theorem rpmResponse_defined_iff : (rpmResponse s).undef = false ↔ (rpmInterval s).toNat ≠ 0 := by
  by_cases h : (rpmInterval s).toNat = 0
  · simp [rpmResponse_of_zero, h]
  · simp [rpmResponse_of_ne_zero, h]

/-- The quotient is at most 60000, so 32 bits hold it exactly (R195). -/
theorem rpmQuotient_toNat (t : Word) (k : Nat) : (rpmQuotient t k).toNat = 60000 / (t.toNat * k) := by
  have : 60000 / (t.toNat * k) ≤ 60000 := Nat.div_le_self _ _
  rw [rpmQuotient, msPerMinute, BitVec.toNat_ofNat, Nat.mod_eq_of_lt (by omega)]

/-- A longer interval gives no larger quotient (R194). -/
theorem rpmQuotient_antitone {t u : Word} {k : Nat} (hk : 1 ≤ k) (ht : t.toNat ≠ 0) (h : t.toNat ≤ u.toNat) :
    (rpmQuotient u k).toNat ≤ (rpmQuotient t k).toNat := by
  rw [rpmQuotient_toNat, rpmQuotient_toNat]
  exact Nat.div_le_div_left (Nat.mul_le_mul_right k h) (Nat.mul_pos (Nat.pos_of_ne_zero ht) hk)

theorem rpmQuotient_eq_zero {t : Word} {k : Nat} (h : 60000 < t.toNat * k) : rpmQuotient t k = 0 :=
  BitVec.eq_of_toNat_eq (by rw [rpmQuotient_toNat, Nat.div_eq_of_lt h]; rfl)

/-- Settles O38: the maximum of the two differences modulo 2^32 is the interval of `rpmInterval_toNat`, and whether it is 0
selects the answer. -/
theorem getRpmRespondsTheQuotient : Obligations.GetRpmRespondsTheQuotient := by
  unfold Obligations.GetRpmRespondsTheQuotient
  refine ⟨fun _ => decode_getRpm_of_opField, ?_⟩
  rintro s tB tS t hk hB hS rfl
  have interval : (rpmInterval s).toNat = max tB tS := by
    rw [rpmInterval_toNat, BitVec.toNat_sub, BitVec.toNat_sub, hB, hS, Nat.add_comm s.lastChangeTime.toNat,
      Nat.add_comm s.ports.nowMs.toNat]
  rw [exec_getRpm_eq hk, ← interval]
  split
  · rw [rpmResponse_of_zero ‹_›]
  · rw [rpmResponse_of_ne_zero ‹_›, rpmQuotient, msPerMinute]

theorem sinceLatch_le_rpmInterval (s : State) : (s.ports.nowMs - s.lastChangeTime).toNat ≤ (rpmInterval s).toNat := by
  rw [rpmInterval_toNat]
  exact le_max_right _ _

/-- The time since the last latch event is one of the two intervals, so the time step grows with it (R194). -/
theorem rpmInterval_le_of_later {later : Word}
    (h : (s.ports.nowMs - s.lastChangeTime).toNat ≤ (later - s.lastChangeTime).toNat) :
    (rpmInterval s).toNat ≤ (rpmInterval { s with ports := { s.ports with nowMs := later } }).toNat := by
  rw [rpmInterval_toNat, rpmInterval_toNat]
  exact max_le_max_left _ h

/-- A longer time step keeps a defined estimate defined and does not raise it, at the same configuration (R194). -/
theorem rpmResponse_antitone {u : State} (hk : 1 ≤ s.cfg.latchesPerRev) (hcfg : u.cfg = s.cfg)
    (h : (rpmInterval s).toNat ≤ (rpmInterval u).toNat) (hd : (rpmResponse s).undef = false) :
    (rpmResponse u).undef = false ∧ (rpmResponse u).data.toNat ≤ (rpmResponse s).data.toNat := by
  have hs : (rpmInterval s).toNat ≠ 0 := rpmResponse_defined_iff.1 hd
  have hu : (rpmInterval u).toNat ≠ 0 := by omega
  rw [rpmResponse_of_ne_zero hs, rpmResponse_of_ne_zero hu, hcfg]
  exact ⟨rfl, rpmQuotient_antitone hk hs h⟩

/-- Once the time since the last latch event is above 60000 / LATCHES_PER_REV ms, GET_RPM answers 0 (R194). -/
theorem exec_getRpm_of_stale (hk : 1 ≤ s.cfg.latchesPerRev)
    (h : 60000 < (s.ports.nowMs - s.lastChangeTime).toNat * s.cfg.latchesPerRev) :
    exec .getRpm s = .next { s with rsp := some { data := 0, undef := false } } := by
  have long : 60000 < (rpmInterval s).toNat * s.cfg.latchesPerRev :=
    h.trans_le (Nat.mul_le_mul_right _ (sinceLatch_le_rpmInterval s))
  have hs : (rpmInterval s).toNat ≠ 0 := fun h0 => by simp [h0] at long
  rw [exec_getRpm_eq hk, rpmResponse_of_ne_zero hs, rpmQuotient_eq_zero long]

/-- Settles O40: the estimate follows the time step (`rpmResponse_antitone`), and past the threshold it is 0
(`exec_getRpm_of_stale`), which for 20 latch events per revolution is 3000 ms. -/
theorem staleSpeedFallsToZero : Obligations.StaleSpeedFallsToZero := by
  unfold Obligations.StaleSpeedFallsToZero
  intro s hk
  refine ⟨?_, exec_getRpm_of_stale hk, fun h20 hlong => exec_getRpm_of_stale hk (by rw [h20]; omega)⟩
  intro later t u q r hlater ht hu hq hr hd
  rw [exec_getRpm_eq hk] at ht
  rw [exec_getRpm_eq (s := { s with ports := { s.ports with nowMs := later } }) hk] at hu
  cases ht; cases hu; cases hq; cases hr
  exact rpmResponse_antitone hk rfl (rpmInterval_le_of_later hlater) hd

end Sys2Proof.Machine
end

section
/-! Command words (spec/30_encoding.md R91, R96, R98, R102): the decoder by the op field, and its agreement with the encoder. -/

namespace Sys2Proof.Machine

variable {w : CommandWord}

/-- The op field alone selects TICK (R94, R96). -/
theorem decode_tick_of_opField (h : opField w = 0b000#3) : decode w = .ok .tick := by
  simp [decode, h]

/-- The op field alone selects GET_DIRECTION (R94, R96). -/
theorem decode_getDirection_of_opField (h : opField w = 0b010#3) : decode w = .ok .getDirection := by
  simp [decode, h]

/-- The two codes that spell no operation (R98). -/
theorem decode_reserved_of_opField (h : opField w = 0b110#3 ∨ opField w = 0b111#3) :
    decode w = .error (.reservedCommand (opField w)) := by
  rcases h with h | h <;> simp [decode, h]

/-- A word stands for the command of its op field; its arg matters to SET_POSITION alone (R94). -/
theorem decode_ok_iff (i : Instr) :
    decode w = .ok i ↔ opField w = opcode i ∧ (opField w = 0b011#3 → argField w = operand i) := by
  constructor
  · intro h
    unfold decode at h
    split at h <;> cases h <;> simp_all [opcode, operand]
  · rintro ⟨hop, harg⟩
    cases i with
    | tick => exact decode_tick_of_opField hop
    | getPosition => exact decode_getPosition_of_opField hop
    | getDirection => exact decode_getDirection_of_opField hop
    | setPosition n => rw [decode_setPosition_of_opField hop, harg hop, operand]
    | getMillisBetweenRotations => exact decode_getMillis_of_opField hop
    | getRpm => exact decode_getRpm_of_opField hop

theorem op_defined_cases {op : BitVec 3} (h6 : op ≠ 0b110#3) (h7 : op ≠ 0b111#3) :
    op = 0b000#3 ∨ op = 0b001#3 ∨ op = 0b010#3 ∨ op = 0b011#3 ∨ op = 0b100#3 ∨ op = 0b101#3 := by
  revert op
  decide

/-- A word whose op field is not reserved is a command (R98). -/
theorem decode_of_opField_defined (h6 : opField w ≠ 0b110#3) (h7 : opField w ≠ 0b111#3) : ∃ i, decode w = .ok i := by
  rcases op_defined_cases h6 h7 with h | h | h | h | h | h
  · exact ⟨_, decode_tick_of_opField h⟩
  · exact ⟨_, decode_getPosition_of_opField h⟩
  · exact ⟨_, decode_getDirection_of_opField h⟩
  · exact ⟨_, decode_setPosition_of_opField h⟩
  · exact ⟨_, decode_getMillis_of_opField h⟩
  · exact ⟨_, decode_getRpm_of_opField h⟩

/-- The decoder stops at the two reserved codes alone, and names the code (R98). -/
theorem decode_error_cases {op : BitVec 3} (h : decode w = .error (.reservedCommand op)) :
    (opField w = 0b110#3 ∨ opField w = 0b111#3) ∧ op = opField w := by
  by_cases hres : opField w = 0b110#3 ∨ opField w = 0b111#3
  · have reserved := decode_reserved_of_opField hres
    rw [h] at reserved
    cases reserved
    exact ⟨hres, rfl⟩
  · rw [not_or] at hres
    obtain ⟨i, hi⟩ := decode_of_opField_defined hres.1 hres.2
    rw [hi] at h
    cases h

@[simp] theorem opField_encode (i : Instr) : opField (encode i) = opcode i := opField_append _ _
@[simp] theorem argField_encode (i : Instr) : argField (encode i) = operand i := argField_append _ _

/-- A word is its two fields. -/
theorem word_eq_iff (v w : CommandWord) : v = w ↔ opField v = opField w ∧ argField v = argField w := by
  refine ⟨fun h => h ▸ ⟨rfl, rfl⟩, fun ⟨hop, harg⟩ => ?_⟩
  rw [word_eq_append v, word_eq_append w, hop, harg]

theorem decode_encode (i : Instr) : decode (encode i) = .ok i :=
  (decode_ok_iff i).2 ⟨opField_encode i, fun _ => argField_encode i⟩

/-- The assembler writes arg 0 wherever the command ignores it (R101). -/
theorem operand_of_opcode_ne {i : Instr} (h : opcode i ≠ 0b011#3) : operand i = 0 := by
  cases i <;> simp_all [opcode, operand]

/-- The word the assembler writes for a decoded command is the word itself but for an ignored arg (R94, R101). -/
theorem encode_decoded_eq_iff {i : Instr} (h : decode w = .ok i) :
    encode i = w ↔ opField w = 0b011#3 ∨ argField w = 0#32 := by
  obtain ⟨hop, harg⟩ := (decode_ok_iff i).1 h
  rw [word_eq_iff, opField_encode, argField_encode, hop]
  by_cases h3 : opcode i = 0b011#3
  · simp [h3, harg (hop.trans h3)]
  · simp [h3, operand_of_opcode_ne h3, eq_comm]

/-- Settles O6, from `decode_encode`, the op field of `decode_ok_iff` and `encode_decoded_eq_iff`. -/
theorem decodeEncodeAgree : Obligations.DecodeEncodeAgree := by
  unfold Obligations.DecodeEncodeAgree
  refine ⟨fun i _ => decode_encode i, fun w i h => ⟨?_, encode_decoded_eq_iff h⟩⟩
  obtain ⟨hop, -⟩ := (decode_ok_iff i).1 h
  exact (opField_encode i).trans hop.symm

/-- The operand stands above the code of SET_POSITION (R102). -/
theorem encode_setPosition (n : Word) : encode (.setPosition n) = (n.zeroExtend 35 <<< 3) ||| 0x3#35 := by
  rw [encode, operand, opcode, BitVec.append_def, BitVec.shiftLeftZeroExtend_eq]
  rfl

/-- Settles O7: five fixed words, and `encode_setPosition`. -/
theorem assemblerWords : Obligations.AssemblerWords := by
  unfold Obligations.AssemblerWords
  exact ⟨rfl, rfl, rfl, encode_setPosition, rfl, rfl⟩

/-- Settles O5: one lemma of the decoder for each op value. -/
theorem decodeByOpField : Obligations.DecodeByOpField := by
  unfold Obligations.DecodeByOpField
  intro w
  refine ⟨decode_tick_of_opField, decode_getPosition_of_opField, decode_getDirection_of_opField,
    decode_setPosition_of_opField, decode_getMillis_of_opField, decode_getRpm_of_opField, fun h => ?_, fun h => ?_⟩
  · rw [decode_reserved_of_opField (.inl h), show opField w = _ from h]
  · rw [decode_reserved_of_opField (.inr h), show opField w = _ from h]

/-- Settles O8: each word has its command's op field and, for SET_POSITION, its operand. -/
theorem writtenWordsDecode : Obligations.WrittenWordsDecode := by
  unfold Obligations.WrittenWordsDecode
  exact ⟨decode_tick_of_opField (by decide), decode_getPosition_of_opField (by decide),
    decode_getDirection_of_opField (by decide), decode_setPosition_of_opField (by decide),
    decode_setPosition_of_opField (by decide), decode_getMillis_of_opField (by decide),
    decode_getRpm_of_opField (by decide)⟩

end Sys2Proof.Machine
end

section
/-! What one presented step does (spec/30_encoding.md R97 to R99; spec/70_reset_and_hazards.md R250, R251). -/

namespace Sys2Proof.Machine

variable {s : State} {p : Ports} {later : List Ports}

theorem step_of_presented (hh : s.host = p :: later) (hk : 1 ≤ s.cfg.latchesPerRev) :
    step s = perform (s.sample p later) :=
  step_of_takeStep_ok ((takeStep_ok_iff s _).2 ⟨p, later, hh, hk, rfl⟩)

theorem step_of_command {i : Instr} (hh : s.host = p :: later) (hs : s.Ready) (hr : p.rst = false)
    (hd : decode p.cmd = .ok i) : step s = exec i (s.sample p later) := by
  obtain ⟨hc, hk⟩ := hs
  have fetched : fetchCommand (s.sample p later) = .ok i := (fetchCommand_ok_iff _ i).2 ⟨hc, hd⟩
  simp [step_of_presented hh hk, perform, hr, fetched]

theorem step_of_fetchCommand_error {r : Refusal} (hh : s.host = p :: later) (hk : 1 ≤ s.cfg.latchesPerRev)
    (hr : p.rst = false) (hf : fetchCommand (s.sample p later) = .error r) : step s = .refused r := by
  simp [step_of_presented hh hk, perform, hr, hf]

theorem step_of_reset_to {m : LatchMode} (hh : s.host = p :: later) (hk : 1 ≤ s.cfg.latchesPerRev) (hr : p.rst = true)
    (hm : p.cfgMode = modeCode m) : step s = .next ((s.sample p later).construct m).noResponse := by
  rw [step_of_reset hh hk hr]
  exact (resetBlock_next_iff _ _ _).2 ⟨m, hm, rfl⟩

/-- Every reason a step can stop for, with the state and ports that give it. -/
theorem step_refused_cases {r : Refusal} (h : step s = .refused r) :
    (s.host = [] ∧ r = .noStepPresented) ∨ (s.cfg.latchesPerRev = 0 ∧ r = .reservedConfiguration) ∨
    ∃ p later, s.host = p :: later ∧
      ((p.rst = true ∧ p.cfgMode = 0b00#2 ∧ r = .reservedMode) ∨
       (p.rst = false ∧ s.constructed = false ∧ r = .commandBeforeReset) ∨
       (p.rst = false ∧ (opField p.cmd = 0b110#3 ∨ opField p.cmd = 0b111#3) ∧ r = .reservedCommand (opField p.cmd))) := by
  cases ht : takeStep s with
  | error r' =>
    rw [step_of_takeStep_error ht] at h
    cases h
    rcases (takeStep_error_iff s r).1 ht with hnone | ⟨-, hcfg⟩
    · exact .inl hnone
    · exact .inr (.inl hcfg)
  | ok sampled =>
    obtain ⟨p, later, hh, hk, rfl⟩ := (takeStep_ok_iff s sampled).1 ht
    refine .inr (.inr ⟨p, later, hh, ?_⟩)
    cases hr : p.rst with
    | true =>
      rw [step_of_reset hh hk hr] at h
      exact .inl ⟨rfl, (resetBlock_refused_iff _ _ _).1 h⟩
    | false =>
      cases hf : fetchCommand (s.sample p later) with
      | error r' =>
        rw [step_of_fetchCommand_error hh hk hr hf] at h
        cases h
        rcases (fetchCommand_error_iff _ _).1 hf with hbefore | ⟨-, op, hd, rfl⟩
        · exact .inr (.inl ⟨rfl, hbefore⟩)
        · obtain ⟨hop, rfl⟩ := decode_error_cases hd
          exact .inr (.inr ⟨rfl, hop, rfl⟩)
      | ok i =>
        obtain ⟨hc, hd⟩ := (fetchCommand_ok_iff _ i).1 hf
        obtain ⟨t, ht⟩ := exec_completes i (s := s.sample p later) hk
        rw [step_of_command hh ⟨hc, hk⟩ hr hd, ht] at h
        cases h

/-- Settles O14: the reasons are those of `step_refused_cases`; a fault has no constructor. -/
theorem stepStopsOnlyWhereRefused : Obligations.StepStopsOnlyWhereRefused := by
  unfold Obligations.StepStopsOnlyWhereRefused
  refine fun s => ⟨(nomatch ·), fun r h => ?_⟩
  rcases step_refused_cases h with ⟨hnone, -⟩ | ⟨hcfg, -⟩ | ⟨p, later, hh, hreason⟩
  · exact .inl hnone
  · exact .inr (.inl hcfg)
  · refine .inr (.inr ⟨p, later, hh, ?_⟩)
    rcases hreason with ⟨hr, hmode, -⟩ | ⟨hr, hc, -⟩ | ⟨hr, hop, -⟩
    · exact .inl ⟨hr, hmode⟩
    · exact .inr (.inl ⟨hr, hc⟩)
    · exact .inr (.inr ⟨hr, hop⟩)

/-- Settles O9: it is `step_of_command`. -/
theorem stepRunsTheDecodedCommand : Obligations.StepRunsTheDecodedCommand := by
  unfold Obligations.StepRunsTheDecodedCommand
  intro s p later i hh hs hr hd
  exact step_of_command hh hs hr hd

/-- Settles O2, from the two cases of the reset block. -/
theorem resetStepConstructsTheBlock : Obligations.ResetStepConstructsTheBlock := by
  unfold Obligations.ResetStepConstructsTheBlock
  intro s p later hh hr hk
  refine ⟨fun h0 => ?_, fun m hm => step_of_reset_to hh hk hr hm⟩
  rw [step_of_reset hh hk hr]
  exact (resetBlock_refused_iff _ _ _).2 ⟨h0, rfl⟩

/-- Settles O3: the codes are read back by `modeOfCode_some_iff`; a reset line without a mode carries the default's code. -/
theorem modeCodesAreTheTable : Obligations.ModeCodesAreTheTable := by
  unfold Obligations.ModeCodesAreTheTable
  have read_back (m : LatchMode) : modeOfCode (modeCode m) = some m := (modeOfCode_some_iff _ m).2 rfl
  exact ⟨(modeOfCode_none_iff _).2 rfl, read_back .fourLatchAt3, read_back .fourLatchAt0, read_back .twoLatchAt0And3,
    read_back, fun _ => rfl⟩

theorem instr_wellFormed (i : Instr) : i.wellFormed = true := by
  cases i <;> rfl

/-- Settles O11, from the decoder's errors (`decode_reserved_of_opField`) and its successes (`decode_of_opField_defined`). -/
theorem reservedCommandsRefused : Obligations.ReservedCommandsRefused := by
  unfold Obligations.ReservedCommandsRefused
  constructor
  · rintro s p later hh ⟨hc, hk⟩ hr
    have refused (hop : opField p.cmd = 0b110#3 ∨ opField p.cmd = 0b111#3) :
        step s = .refused (.reservedCommand (opField p.cmd)) :=
      step_of_fetchCommand_error hh hk hr
        ((fetchCommand_error_iff _ _).2 (.inr ⟨hc, _, decode_reserved_of_opField hop, rfl⟩))
    exact ⟨fun h6 => h6 ▸ refused (.inl h6), fun h7 => h7 ▸ refused (.inr h7)⟩
  · intro w h6 h7
    obtain ⟨i, hi⟩ := decode_of_opField_defined h6 h7
    exact ⟨i, hi, instr_wellFormed i⟩

/-- Settles O12, from the first error of the fetch. -/
theorem commandBeforeResetRefused : Obligations.CommandBeforeResetRefused := by
  unfold Obligations.CommandBeforeResetRefused
  intro s p later hh hr hc hk
  exact step_of_fetchCommand_error hh hk hr ((fetchCommand_error_iff _ _).2 (.inl ⟨hc, rfl⟩))

/-- Settles O13: the host's step is not taken. -/
theorem zeroLatchesPerRevRefused : Obligations.ZeroLatchesPerRevRefused := by
  unfold Obligations.ZeroLatchesPerRevRefused
  intro s p later hh hz
  exact step_of_takeStep_error ((takeStep_error_iff s _).2 (.inr ⟨by simp [hh], hz, rfl⟩))

/-- A command word is at most 40 bits long, so the table's numbering loses none of it. -/
theorem commandOfTable_toNat (w : CommandWord) : commandOfTable 40 w.toNat = w := by
  have short : w.toNat < 2 ^ 40 := w.isLt.trans (by decide)
  rw [commandOfTable, Nat.mod_eq_of_lt short, BitVec.ofNat_toNat, BitVec.setWidth_eq]

theorem presentCommand_of_cons (cmd : CommandWord) (hh : s.host = p :: later) :
    s.presentCommand cmd = { s with host := { p with rst := false, cmd := cmd } :: later } := by
  simp [State.presentCommand, hh]

theorem presentCommand_of_nil (cmd : CommandWord) (hh : s.host = []) :
    s.presentCommand cmd = { s with host := [{ s.ports with rst := false, cmd := cmd }] } := by
  simp [State.presentCommand, hh]

/-- Settles O10: the word is the table's own, and the step it is placed in runs the command it encodes. -/
theorem fetchWordRunsTheInstruction : Obligations.FetchWordRunsTheInstruction := by
  unfold Obligations.FetchWordRunsTheInstruction
  intro s i hs
  rw [State.withFetchWord, commandOfTable_toNat]
  constructor
  · intro p later hh
    rw [presentCommand_of_cons _ hh]
    exact step_of_command rfl hs rfl (decode_encode i)
  · intro hh
    rw [presentCommand_of_nil _ hh, ← hh]
    exact step_of_command (by rw [hh]) hs rfl (decode_encode i)

end Sys2Proof.Machine
end

section
/-! The refusal mark (spec/30_encoding.md R99, log entry 4). -/

namespace Sys2Proof.Machine

variable {m : MarkedState} {r : Refusal}

theorem markedStep_of_refused (h : step m.state = .refused r) (hr : r ≠ .noStepPresented) :
    m.step = { state := m.state.refusedStep, mark := some (m.mark.getD r) } := by
  unfold MarkedState.step
  rw [h]
  cases r with
  | noStepPresented => exact absurd rfl hr
  | notModelled | reservedCommand | reservedMode | reservedConfiguration | commandBeforeReset => rfl

/-- No step clears the mark or puts another in its place. -/
theorem markedStep_keeps_mark (h : m.mark = some r) : m.step.mark = some r := by
  unfold MarkedState.step
  split
  · exact h
  · contradiction
  · exact h
  · simp [h]

theorem markedRun_keeps_mark (h : m.mark = some r) (k : Nat) : (MarkedState.run k m).mark = some r := by
  induction k generalizing m with
  | zero => exact h
  | succ k ih => exact ih (markedStep_keeps_mark h)

/-- Settles O15: a refused step sets the mark, and `markedRun_keeps_mark`. -/
theorem refusalMarkStays : Obligations.RefusalMarkStays := by
  unfold Obligations.RefusalMarkStays
  refine fun m r => ⟨fun h hr hm => ?_, markedRun_keeps_mark⟩
  rw [markedStep_of_refused h hr, hm]
  rfl

end Sys2Proof.Machine
end

section
/-! Program lines as host steps (spec/30_encoding.md R101, R262). -/

namespace Sys2Proof.Machine

variable {p : Ports}

theorem opWellFormed_opcode (i : Instr) : opWellFormed (opcode i) = true := by
  cases i <;> rfl

theorem modeCodeWellFormed_modeCode (m : LatchMode) : modeCodeWellFormed (modeCode m) = true := by
  cases m <;> rfl

theorem legal_of_encoded {i : Instr} (hr : p.rst = false) (hc : p.cmd = encode i) : p.legal = true := by
  simp [Ports.legal, hr, hc, opWellFormed_opcode]

theorem legal_of_reset {m : LatchMode} (hr : p.rst = true) (hm : p.cfgMode = modeCode m) : p.legal = true := by
  simp [Ports.legal, hr, hm, modeCodeWellFormed_modeCode]

/-- A line's step is legal: it presents an encoded command, or resets to a mode. -/
theorem linePorts_legal (others : Ports) (l : Line) : (l.ports others).legal = true := by
  cases l with
  | reset m => exact legal_of_reset (m := m.getD defaultMode) rfl rfl
  | tick | getPosition | getDirection | setPosition | getMillisBetweenRotations | getRpm =>
    exact legal_of_encoded rfl rfl

theorem linePorts_rst_iff (others : Ports) (l : Line) :
    (l.ports others).rst = true ↔ ∃ m : Option LatchMode, l = .reset m := by
  cases l <;> simp [Line.ports]

/-- Settles O56: a line's step is legal, and its command word is the encoding of the line's own command. -/
theorem programLinesAreLegalSteps : Obligations.ProgramLinesAreLegalSteps := by
  unfold Obligations.ProgramLinesAreLegalSteps
  intro others l
  refine ⟨linePorts_legal others l, linePorts_rst_iff others l, ?_, ?_, ?_, ?_, ?_, ?_, ?_, ?_⟩
  · rintro m rfl; rfl
  · rintro rfl; rfl
  · rintro n rfl; exact decode_encode _
  · rintro a b now rfl; exact ⟨decode_encode _, rfl, rfl⟩
  · rintro now rfl; exact ⟨decode_encode _, rfl⟩
  · rintro rfl; exact decode_encode _
  · rintro rfl; exact decode_encode _
  · rintro rfl; exact decode_encode _

end Sys2Proof.Machine
end

section
/-! The transition table's properties and the values right after a reset (spec/10_state.md sections 3 and 6). -/

namespace Sys2Proof.Machine

/-- Settles O18: the sixteen entries are enumerated for each property. -/
theorem transitionTableProperties : Obligations.TransitionTableProperties := by
  unfold Obligations.TransitionTableProperties
  exact ⟨by decide, by decide, by decide, by decide, by decide, by decide⟩

/-- Settles O1: the registers are read off the state after reset. -/
theorem stateAfterDefaultReset : Obligations.StateAfterDefaultReset := by
  unfold Obligations.StateAfterDefaultReset
  exact ⟨rfl, rfl, rfl, rfl, rfl, rfl, rfl, rfl⟩

/-- A reset to any mode starts with raw state 3 and count 0, both even. -/
theorem construct_phaseAgrees (s : State) (m : LatchMode) : (s.construct m).PhaseAgrees := by
  have even : (0 : Word).getLsbD 0 = ((3 : RawState).getLsbD 0 ^^ (3 : RawState).getLsbD 1) := by decide
  exact even

@[simp] theorem zero_sar32 (k : Nat) : sar32 0 k = 0 := by simp [sar32]

/-- A reset to any mode zeroes both positions. -/
theorem construct_inSync (s : State) (m : LatchMode) : (s.construct m).InSync := (zero_sar32 (shift m)).symm

/-- Settles O55: the reset state is a constructed one. -/
theorem phaseParityAfterReset : Obligations.PhaseParityAfterReset := by
  unfold Obligations.PhaseParityAfterReset
  exact construct_phaseAgrees State.reset defaultMode

end Sys2Proof.Machine
end

section
/-! What each command writes besides its response (spec/30_encoding.md R95, R97; spec/10_state.md section 5). -/

namespace Sys2Proof.Machine

variable {s t : State}

theorem exec_getDirection_eq (s : State) :
    exec .getDirection s = .next
      { s with
        prevExternalPos := s.externalPos
        rsp := some { data := directionCode (directionOf s.prevExternalPos s.externalPos), undef := false } } := rfl

/-- Settles O33: op 0b010, and the direction code by the signed values. -/
theorem getDirectionReportsAndConsumes : Obligations.GetDirectionReportsAndConsumes := by
  unfold Obligations.GetDirectionReportsAndConsumes
  refine ⟨fun _ => decode_getDirection_of_opField, fun s => ?_⟩
  rw [exec_getDirection_eq, directionCode_directionOf]

/-- The four queries write the response, and GET_DIRECTION the snapshot beside it. -/
theorem exec_query_frame {i : Instr} (hi : i ≠ .tick) (hset : ∀ n, i ≠ .setPosition n) (h : exec i s = .next t) :
    t = { s with prevExternalPos := t.prevExternalPos, rsp := t.rsp } := by
  cases i with
  | tick => exact absurd rfl hi
  | setPosition n => exact absurd rfl (hset n)
  | getPosition | getDirection | getMillisBetweenRotations => cases h; rfl
  | getRpm => rw [execGetRpm_frame h]

theorem execGetRpm_next (h : execGetRpm s = .next t) : 1 ≤ s.cfg.latchesPerRev ∧ t = { s with rsp := some (rpmResponse s) } := by
  cases hw : s.cfg.wellFormed with
  | false => rw [execGetRpm_of_zero hw] at h; cases h
  | true => rw [execGetRpm_of_admitted hw] at h; cases h; exact ⟨(wellFormed_iff _).1 hw, rfl⟩

/-- Settles O47, command by command. -/
theorem responsesByCommand : Obligations.ResponsesByCommand := by
  unfold Obligations.ResponsesByCommand
  intro i s t h
  cases i with
  | tick =>
    obtain ⟨-, -, -, -, -, -, hrsp, -⟩ := execTick_frame h
    simp [hrsp]
  | getRpm =>
    obtain ⟨-, rfl⟩ := execGetRpm_next h
    simp
  | getPosition | getDirection | setPosition n | getMillisBetweenRotations => cases h; simp

/-- GET_RPM reads the clock alone among the ports. -/
theorem rpmResponse_setPorts {p : Ports} (h : p.nowMs = s.ports.nowMs) :
    rpmResponse { s with ports := p } = rpmResponse s := by
  have interval : rpmInterval { s with ports := p } = rpmInterval s := by
    simp [rpmInterval, betweenLatches, sinceLatch, h]
  rw [rpmResponse, rpmResponse, interval]

theorem exec_getRpm_setPorts {p : Ports} (hnow : p.nowMs = s.ports.nowMs) (h : exec .getRpm s = .next t) :
    exec .getRpm { s with ports := p } = .next { t with ports := p } := by
  obtain ⟨hk, rfl⟩ := execGetRpm_next h
  rw [exec_getRpm_eq (s := { s with ports := p }) hk, rpmResponse_setPorts hnow]

/-- A TICK without a latch event does not read the clock. -/
theorem exec_tick_setNowMs {now : Word} (hl : pinSample s.ports = s.rawState ∨ isLatch s.mode (pinSample s.ports) = false)
    (h : exec .tick s = .next t) :
    exec .tick { s with ports := { s.ports with nowMs := now } } = .next { t with ports := { s.ports with nowMs := now } } := by
  by_cases hsame : pinSample s.ports = s.rawState
  · rw [execTick_unchanged hsame h]
    exact (execTick_next_iff _ _).2 (.inl ⟨hsame, rfl⟩)
  · have unlatched := hl.resolve_left hsame
    rw [exec, execTick_changed_of_not_latch hsame unlatched] at h
    cases h
    exact execTick_changed_of_not_latch (s := { s with ports := { s.ports with nowMs := now } }) hsame unlatched

/-- Settles O48: only GET_RPM and TICK need an argument. -/
theorem inputsUsedByTheirReadersOnly : Obligations.InputsUsedByTheirReadersOnly := by
  unfold Obligations.InputsUsedByTheirReadersOnly
  refine ⟨fun i s t p hi hnow h => ?_, fun s t now => exec_tick_setNowMs⟩
  cases i with
  | tick => exact absurd rfl hi
  | getRpm => exact exec_getRpm_setPorts (hnow rfl) h
  | getPosition | getDirection | setPosition n | getMillisBetweenRotations => cases h; rfl

/-- Settles O49: no query reads the two hidden registers. -/
theorem hiddenStateUnseenByQueries : Obligations.HiddenStateUnseenByQueries := by
  unfold Obligations.HiddenStateUnseenByQueries
  intro i s t internal raw hi hset h
  cases i with
  | tick => exact absurd rfl hi
  | setPosition n => exact absurd rfl (hset n)
  | getRpm =>
    obtain ⟨hk, rfl⟩ := execGetRpm_next h
    exact exec_getRpm_eq (s := { s with internalPos := internal, rawState := raw }) hk
  | getPosition | getDirection | getMillisBetweenRotations => cases h; rfl

end Sys2Proof.Machine
end

section
/-! SET_POSITION and the kept phase (spec/41_position.md R151 to R154). -/

namespace Sys2Proof.Machine

/-- Settles O30, from the bits of `repositioned_getLsbD`. -/
theorem setPositionBits : Obligations.SetPositionBits := by
  unfold Obligations.SetPositionBits
  refine fun s n => ⟨_, exec_setPosition_eq n s, fun j hj => ?_, fun j hj h32 => ?_⟩
  · rw [repositioned_getLsbD, if_pos hj]
  · rw [repositioned_getLsbD, if_neg (Nat.not_lt.2 hj), decide_eq_true h32, Bool.true_and]

variable (m : LatchMode) (x n : Word)

theorem shift_cases : shift m = 1 ∨ shift m = 2 := by
  cases m <;> decide

/-- Shifting the repositioned INTERNAL_POS back gives the operand exactly for one in range (R154): what a 32-bit word shifts back
to is in range, and an operand in range loses no bit. -/
theorem sar32_repositioned_iff : n = sar32 (repositioned m x n) (shift m) ↔ InRange m n := by
  have lo := (repositioned m x n).le_toInt
  have hi := (repositioned m x n).toInt_lt
  rw [← BitVec.toInt_inj, sar32_toInt, InRange]
  constructor
  · intro h
    rcases shift_cases m with hm | hm <;> simp only [hm] at h ⊢ <;> omega
  · intro h
    rw [repositioned_toInt]
    rcases shift_cases m with hm | hm <;> simp only [hm] at h ⊢ <;>
      rw [Int.bmod_eq_of_le (by omega) (by omega)] <;> omega

theorem setPosition_inSync_iff {s t : State} {n : Word} (h : exec (.setPosition n) s = .next t) :
    t.InSync ↔ InRange s.mode n := by
  cases h
  exact sar32_repositioned_iff s.mode s.internalPos n

/-- Settles O31, from `setPosition_inSync_iff`. -/
theorem setPositionSyncsExactlyInRange : Obligations.SetPositionSyncsExactlyInRange := by
  unfold Obligations.SetPositionSyncsExactlyInRange
  exact fun s n => ⟨_, exec_setPosition_eq n s, rfl, setPosition_inSync_iff (exec_setPosition_eq n s)⟩

/-- The phase is the remainder of the signed count too. -/
theorem toNat_emod_shift : ((x.toNat % 2 ^ shift m : Nat) : Int) = x.toInt % 2 ^ shift m := by
  rw [BitVec.toInt_eq_toNat_cond]
  split <;> rcases shift_cases m with hm | hm <;> simp only [hm] <;> omega

/-- SET_POSITION adds the difference of the positions, shifted left, to INTERNAL_POS. -/
theorem repositioned_eq_add :
    repositioned m x n = x + BitVec.ofInt 32 ((n.toInt - (sar32 x (shift m)).toInt) * 2 ^ shift m) := by
  have parts := Int.mul_ediv_add_emod x.toInt (2 ^ shift m)
  apply BitVec.eq_of_toInt_eq
  rw [repositioned_toInt, BitVec.toInt_add, BitVec.toInt_ofInt, Int.add_bmod_bmod, sar32_toInt, toNat_emod_shift]
  congr 1
  linear_combination parts

/-- Adding whole latch positions leaves the sub-latch phase. -/
theorem subLatchPhase_add_shifted (k : Int) :
    subLatchPhase m (x + BitVec.ofInt 32 (k * 2 ^ shift m)) = subLatchPhase m x := by
  have divides : (2 : Int) ^ shift m ∣ 2 ^ 32 := pow_dvd_pow 2 ((shift_le m).trans (by decide))
  have low_of_bmod (a : Int) : a.bmod (2 ^ 32) % 2 ^ shift m = a % 2 ^ shift m := by
    rw [← Int.emod_emod_of_dvd (a.bmod (2 ^ 32)) divides, ← Int.emod_emod_of_dvd a divides]
    exact congrArg (· % (2 : Int) ^ shift m) Int.bmod_emod
  apply BitVec.eq_of_toNat_eq
  rw [subLatchPhase_toNat, subLatchPhase_toNat, ← Nat.cast_inj (R := Int), toNat_emod_shift, toNat_emod_shift,
    BitVec.toInt_add, BitVec.toInt_ofInt, Int.add_bmod_bmod, low_of_bmod, Int.add_mul_emod_self_right]

/-- Adding whole latch positions moves the shifted position by as many, where the sum is in range. -/
theorem sar32_add_shifted {k : Int} (lo : -2 ^ (31 - shift m) ≤ (sar32 x (shift m)).toInt + k)
    (hi : (sar32 x (shift m)).toInt + k < 2 ^ (31 - shift m)) :
    (sar32 (x + BitVec.ofInt 32 (k * 2 ^ shift m)) (shift m)).toInt = (sar32 x (shift m)).toInt + k := by
  rw [sar32_toInt] at lo hi ⊢
  rw [sar32_toInt, BitVec.toInt_add, BitVec.toInt_ofInt, Int.add_bmod_bmod]
  rcases shift_cases m with hm | hm <;> simp only [hm] at lo hi ⊢ <;>
    rw [Int.bmod_eq_of_le (by omega) (by omega)] <;> omega

end Sys2Proof.Machine
end

section
/-! What every step keeps (spec/10_state.md section 6), from the two cases of a step with a next state. -/

namespace Sys2Proof.Machine

variable {s t : State} {p : Ports} {later : List Ports}

/-- `step_next_cases` for the host step that is known to be next. -/
theorem step_next_of_presented (hh : s.host = p :: later) (h : step s = .next t) :
    (p.rst = true ∧ ∃ m, p.cfgMode = modeCode m ∧ t = ((s.sample p later).construct m).noResponse) ∨
    (p.rst = false ∧ ∃ i, decode p.cmd = .ok i ∧ exec i (s.sample p later) = .next t) := by
  obtain ⟨p', later', hh', -, hcases⟩ := step_next_cases h
  obtain ⟨rfl, rfl⟩ := List.cons.inj (hh.symm.trans hh')
  rcases hcases with hreset | ⟨hr, -, hcommand⟩
  · exact .inl hreset
  · exact .inr ⟨hr, hcommand⟩

/-- Settles O50: a reset loads the mode of its code, and `exec_frame` for every command. -/
theorem modeFixedBetweenResets : Obligations.ModeFixedBetweenResets := by
  unfold Obligations.ModeFixedBetweenResets
  intro s t h
  obtain ⟨p, later, hh, -, ⟨hr, m, hm, rfl⟩ | ⟨-, -, i, -, hx⟩⟩ := step_next_cases h
  · exact ⟨rfl, .inr ⟨p, later, hh, hr, hm⟩⟩
  · obtain ⟨hcfg, -, hmode, -⟩ := exec_frame hx
    exact ⟨hcfg, .inl hmode⟩

/-- Settles O51: of the commands, only TICK can write a timestamp, and at a latch event alone (`execTick_latch`). -/
theorem onlyLatchEventsChangeTimestamps : Obligations.OnlyLatchEventsChangeTimestamps := by
  unfold Obligations.OnlyLatchEventsChangeTimestamps
  intro s t h
  obtain ⟨p, later, hh, -, ⟨hr, -⟩ | ⟨hr, -, i, hd, hx⟩⟩ := step_next_cases h
  · exact .inr ⟨p, later, hh, .inl hr⟩
  · have hop := ((decode_ok_iff i).1 hd).1
    cases i with
    | tick =>
      obtain ⟨latched, unlatched⟩ := execTick_latch hx
      by_cases hl : pinSample p ≠ s.rawState ∧ isLatch s.mode (pinSample p) = true
      · obtain ⟨-, hprior, hlast⟩ := latched hl
        exact .inr ⟨p, later, hh, .inr ⟨⟨hr, hop⟩, hl.1, hl.2, hprior, hlast⟩⟩
      · obtain ⟨-, hprior, hlast⟩ := unlatched hl
        exact .inl ⟨hlast, hprior⟩
    | setPosition n => cases hx; exact .inl ⟨rfl, rfl⟩
    | getPosition | getDirection | getMillisBetweenRotations | getRpm =>
      rw [exec_query_frame (by simp) (by simp) hx]
      exact .inl ⟨rfl, rfl⟩

/-- Settles O52, command by command. -/
theorem onlyTwoCommandsChangeTheSnapshot : Obligations.OnlyTwoCommandsChangeTheSnapshot := by
  unfold Obligations.OnlyTwoCommandsChangeTheSnapshot
  intro s t h
  obtain ⟨p, later, hh, -, ⟨hr, -⟩ | ⟨hr, -, i, hd, hx⟩⟩ := step_next_cases h
  · exact .inr ⟨p, later, hh, .inl hr⟩
  · have hop := ((decode_ok_iff i).1 hd).1
    cases i with
    | getDirection => exact .inr ⟨p, later, hh, .inr (.inl ⟨hr, hop⟩)⟩
    | setPosition n => exact .inr ⟨p, later, hh, .inr (.inr ⟨hr, hop⟩)⟩
    | tick =>
      obtain ⟨-, -, -, hprev, -⟩ := execTick_frame hx
      exact .inl hprev
    | getPosition => cases hx; exact .inl rfl
    | getMillisBetweenRotations => cases hx; exact .inl rfl
    | getRpm =>
      obtain ⟨-, rfl⟩ := execGetRpm_next hx
      exact .inl rfl

/-- A latch event brings the positions into agreement; without one they part only where INTERNAL_POS moves (R124). -/
theorem execTick_inSync (h : execTick s = .next t) :
    (pinSample s.ports ≠ s.rawState → isLatch s.mode (pinSample s.ports) = true → t.InSync) ∧
    (s.InSync → t.InSync ∨ (t.internalPos ≠ s.internalPos ∧ isLatch s.mode (pinSample s.ports) = false)) := by
  obtain ⟨-, -, hmode, -, -, -, -, -, hint⟩ := execTick_frame h
  obtain ⟨latched, unlatched⟩ := execTick_latch h
  have sync (hl : pinSample s.ports ≠ s.rawState ∧ isLatch s.mode (pinSample s.ports) = true) : t.InSync := by
    rw [State.InSync, hmode]
    exact (latched hl).1
  refine ⟨fun hne hl => sync ⟨hne, hl⟩, fun hs => ?_⟩
  by_cases hl : pinSample s.ports ≠ s.rawState ∧ isLatch s.mode (pinSample s.ports) = true
  · exact .inl (sync hl)
  · by_cases hmove : t.internalPos = s.internalPos
    · left
      rw [State.InSync, hmode, hmove, (unlatched hl).1]
      exact hs
    · have hne : pinSample s.ports ≠ s.rawState := fun hsame => hmove (by simp [hint, hsame, delta_same])
      exact .inr ⟨hmove, by simpa [hne] using hl⟩

/-- Settles O53: `construct_inSync` for a reset, `execTick_inSync` for TICK, `setPosition_inSync_iff` for SET_POSITION; the queries
write none of the three registers. -/
theorem positionsInSyncUntilUnlatchedMove : Obligations.PositionsInSyncUntilUnlatchedMove := by
  unfold Obligations.PositionsInSyncUntilUnlatchedMove
  intro s t p later hh h
  rcases step_next_of_presented hh h with ⟨-, m, -, rfl⟩ | ⟨hr, i, hd, hx⟩
  · have sync := construct_inSync (s.sample p later) m
    exact ⟨fun _ => sync, fun _ _ _ => sync, fun _ _ => sync, fun _ => .inl sync⟩
  · obtain ⟨hop, harg⟩ := (decode_ok_iff i).1 hd
    refine ⟨fun hreset => absurd (hr.symm.trans hreset) nofun, ?_⟩
    have only (j : BitVec 3) (hj : opcode i ≠ j) : ¬p.Presents j := fun hp => hj (hop.symm.trans hp.2)
    cases i with
    | tick =>
      obtain ⟨latched, kept⟩ := execTick_inSync hx
      refine ⟨fun _ => latched, fun hp => absurd hp (only _ (by decide)), fun hs => ?_⟩
      rcases kept hs with sync | moved
      · exact .inl sync
      · exact .inr (.inl ⟨⟨hr, hop⟩, moved⟩)
    | setPosition n =>
      have hn : argField p.cmd = n := harg hop
      have sync_iff := setPosition_inSync_iff hx
      rw [hn]
      refine ⟨fun hp => absurd hp (only _ (by simp [opcode])), fun _ => sync_iff.2, fun _ => ?_⟩
      by_cases hin : InRange s.mode n
      · exact .inl (sync_iff.2 hin)
      · exact .inr (.inr ⟨⟨hr, hop⟩, hin⟩)
    | getPosition | getDirection | getMillisBetweenRotations | getRpm =>
      refine ⟨fun hp => absurd hp (only _ (by decide)), fun hp => absurd hp (only _ (by decide)), fun hs => .inl ?_⟩
      rw [exec_query_frame (by simp) (by simp) hx]
      exact hs

/-- A TICK changes the parity of the count exactly if it changes the parity of the raw state. -/
theorem execTick_phaseAgrees (hs : s.PhaseAgrees) (h : execTick s = .next t) : t.PhaseAgrees := by
  obtain ⟨-, -, -, -, -, -, -, hraw, hint⟩ := execTick_frame h
  rw [State.PhaseAgrees, hraw, hint, add_low_bit, lutKey, delta_low_bit, hs, ← Bool.xor_assoc, Bool.xor_self,
    Bool.false_xor]

/-- SET_POSITION keeps the low bit: it is in the phase of every mode. -/
theorem setPosition_phaseAgrees {n : Word} (hs : s.PhaseAgrees) (h : exec (.setPosition n) s = .next t) :
    t.PhaseAgrees := by
  cases h
  exact (repositioned_getLsbD s.mode s.internalPos n 0).trans ((if_pos (shift_pos s.mode)).trans hs)

/-- Settles O54: a reset starts the link anew, TICK and SET_POSITION keep it, and the queries write neither register. -/
theorem stepKeepsPhaseParity : Obligations.StepKeepsPhaseParity := by
  unfold Obligations.StepKeepsPhaseParity
  intro s t hs h
  obtain ⟨p, later, -, -, ⟨-, m, -, rfl⟩ | ⟨-, -, i, -, hx⟩⟩ := step_next_cases h
  · exact construct_phaseAgrees (s.sample p later) m
  · have hs' : (s.sample p later).PhaseAgrees := hs
    cases i with
    | tick => exact execTick_phaseAgrees hs' hx
    | setPosition n => exact setPosition_phaseAgrees hs' hx
    | getPosition | getDirection | getMillisBetweenRotations | getRpm =>
      rw [exec_query_frame (by simp) (by simp) hx]
      exact hs'

end Sys2Proof.Machine
end

section
/-! Runs of legal steps (spec/70_reset_and_hazards.md R262), and what a reset and a snapshot mean for the run after them. -/

namespace Sys2Proof.Machine

variable {s t : State} {p : Ports} {later : List Ports}

/-- A legal step of a ready block has a next state, again ready. -/
theorem step_of_legal (hh : s.host = p :: later) (hs : s.Ready) (hl : p.legal = true) :
    ∃ t, step s = .next t ∧ t.Ready := by
  cases hr : p.rst with
  | true =>
    have hcode : p.cfgMode ≠ 0 := by simpa [Ports.legal, hr, modeCodeWellFormed] using hl
    obtain ⟨m, hm⟩ := Option.ne_none_iff_exists'.1 (mt (modeOfCode_none_iff p.cfgMode).1 hcode)
    exact ⟨_, step_of_reset_to hh hs.2 hr ((modeOfCode_some_iff _ m).1 hm), rfl, hs.2⟩
  | false =>
    have hop : opField p.cmd ≠ 0b110#3 ∧ opField p.cmd ≠ 0b111#3 := by
      simpa [Ports.legal, hr, opWellFormed] using hl
    obtain ⟨i, hi⟩ := decode_of_opField_defined hop.1 hop.2
    obtain ⟨t, ht⟩ := exec_completes i (s := s.sample p later) hs.2
    obtain ⟨hcfg, hcon, -⟩ := exec_frame ht
    exact ⟨t, (step_of_command hh hs hr hi).trans ht, hcon.trans hs.1, hcfg ▸ hs.2⟩

/-- An invariant that every allowed step keeps, and that does not speak of the steps still to come, holds after a run. -/
theorem runSteps_invariant {Inv : State → Prop} {Allowed : Ports → Prop}
    (hhost : ∀ s later, Inv s → Inv { s with host := later })
    (hstep : ∀ s p, Inv s → Allowed p → ∃ t, step { s with host := [p] } = .next t ∧ Inv t)
    (steps : List Ports) (hok : ∀ p ∈ steps, Allowed p) (s : State) (hs : Inv s) :
    ∃ t, s.runSteps steps = .next t ∧ Inv t ∧ t.host = [] := by
  induction steps generalizing s with
  | nil => exact ⟨_, runSteps_nil s, hhost s [] hs, rfl⟩
  | cons p later ih =>
    obtain ⟨hp, hlater⟩ := List.forall_mem_cons.1 hok
    obtain ⟨t, ht, hinv⟩ := hstep s p hs hp
    rw [runSteps_cons_eq, ht]
    exact ih hlater t hinv

/-- Settles O45: a ready block stays ready at every legal step. -/
theorem legalRunsComplete : Obligations.LegalRunsComplete := by
  unfold Obligations.LegalRunsComplete
  intro s steps hs hl
  exact runSteps_invariant (Inv := State.Ready) (Allowed := (·.legal = true)) (fun _ _ h => h)
    (fun s p h => step_of_legal (s := { s with host := [p] }) rfl h) steps hl s hs

/-- The direction code is the sign of the change since the snapshot (R170, R173). -/
theorem directionCode_eq_sign (prev ext : Word) :
    directionCode (directionOf prev ext) = BitVec.ofInt 32 (ext.toInt - prev.toInt).sign := by
  rw [directionCode_directionOf]
  rcases lt_trichotomy prev.toInt ext.toInt with h | h | h
  · rw [if_pos h, Int.sign_eq_one_of_pos (by omega)]
    rfl
  · simp [h]
  · rw [if_neg (by omega), if_pos h, Int.sign_eq_neg_one_of_neg (by omega)]
    rfl

/-- A command that is neither GET_DIRECTION nor SET_POSITION keeps the snapshot (R45 (d)). -/
theorem step_keeps_snapshot (hh : s.host = p :: later) (hr : p.rst = false) (hdir : opField p.cmd ≠ 0b010#3)
    (hset : opField p.cmd ≠ 0b011#3) (h : step s = .next t) : t.prevExternalPos = s.prevExternalPos := by
  rcases onlyTwoCommandsChangeTheSnapshot s t h with same | ⟨p', later', hh', hwho⟩
  · exact same
  · obtain ⟨rfl, rfl⟩ := List.cons.inj (hh.symm.trans hh')
    rcases hwho with hreset | ⟨-, hop⟩ | ⟨-, hop⟩
    · exact absurd (hr.symm.trans hreset) nofun
    · exact absurd hop hdir
    · exact absurd hop hset

/-- A legal command step that does not write the snapshot. -/
def Ports.KeepsSnapshot (p : Ports) : Prop :=
  p.legal = true ∧ p.rst = false ∧ opField p.cmd ≠ 0b010#3 ∧ opField p.cmd ≠ 0b011#3

/-- Over a run of such steps the snapshot stays what it was. -/
theorem runSteps_keeps_snapshot {steps : List Ports} (hs : s.Ready) (hsteps : ∀ p ∈ steps, p.KeepsSnapshot) :
    ∃ t, s.runSteps steps = .next t ∧ t.prevExternalPos = s.prevExternalPos := by
  obtain ⟨t, ht, ⟨-, hprev⟩, -⟩ := runSteps_invariant
    (Inv := fun u => u.Ready ∧ u.prevExternalPos = s.prevExternalPos) (fun _ _ h => h)
    (fun u p ⟨hu, hprev⟩ hp => by
      obtain ⟨hl, hr, hdir, hset⟩ := hp
      obtain ⟨t, ht, hready⟩ := step_of_legal (s := { u with host := [p] }) rfl hu hl
      exact ⟨t, ht, hready, (step_keeps_snapshot rfl hr hdir hset ht).trans hprev⟩)
    steps hsteps s ⟨hs, rfl⟩
  exact ⟨t, ht, hprev⟩

/-- Settles O35: over the run the snapshot stays what EXTERNAL_POS was at its start, and the code is the sign of the change
since it. -/
theorem directionIsNetChangeSinceSnapshot : Obligations.DirectionIsNetChangeSinceSnapshot := by
  unfold Obligations.DirectionIsNetChangeSinceSnapshot
  refine ⟨?_, ?_, fun _ _ => rfl, ?_⟩
  · rintro s t h; cases h; rfl
  · rintro s t n h; cases h; rfl
  · intro s steps hs hsnap hsteps
    obtain ⟨t, ht, hprev⟩ := runSteps_keeps_snapshot hs hsteps
    refine ⟨t, _, ht, exec_getDirection_eq t, ?_⟩
    rw [directionCode_eq_sign, hprev, hsnap]

/-- A reset reads the configuration and the step itself, and nothing else of the block. -/
theorem step_reset_congr {u : State} (hcfg : s.cfg = u.cfg) (hr : p.rst = true) :
    step { s with host := [p] } = step { u with host := [p] } := by
  by_cases hk : 1 ≤ s.cfg.latchesPerRev
  · rw [step_of_reset (s := { s with host := [p] }) rfl hk hr,
      step_of_reset (s := { u with host := [p] }) rfl (hcfg ▸ hk) hr]
    unfold resetBlock
    cases modeOfCode p.cfgMode with
    | none => rfl
    | some m => simp [State.construct, State.sample, State.noResponse, hcfg]
  · have hz : s.cfg.latchesPerRev = 0 := by omega
    rw [zeroLatchesPerRevRefused { s with host := [p] } p [] rfl hz,
      zeroLatchesPerRevRefused { u with host := [p] } p [] rfl (hcfg ▸ hz)]

/-- Settles O4: the runs agree from their first step on. -/
theorem resetErasesThePast : Obligations.ResetErasesThePast := by
  unfold Obligations.ResetErasesThePast
  intro s u p steps hcfg hr
  rw [runSteps_cons_eq, runSteps_cons_eq, step_reset_congr hcfg hr]

end Sys2Proof.Machine
end

section
/-! TICKs in a row (spec/40_tick.md sections 2 and 3). -/

namespace Sys2Proof.Machine

variable {s t : State} {p : Ports} {cur : RawState} {curs more : List RawState} {steps : List Ports}

/-- What a run of TICKs that samples `curs` does to the registers every TICK moves or keeps. -/
structure TickRun (s t : State) (curs : List RawState) : Prop where
  cfg : t.cfg = s.cfg
  constructed : t.constructed = s.constructed
  mode : t.mode = s.mode
  prevExternalPos : t.prevExternalPos = s.prevExternalPos
  rawState : t.rawState = curs.getLastD s.rawState
  internalPos : t.internalPos = s.internalPos + BitVec.ofInt 32 (netDelta s.rawState curs)

theorem TickRun.ready (h : TickRun s t curs) (hs : s.Ready) : t.Ready :=
  ⟨h.constructed.trans hs.1, h.cfg ▸ hs.2⟩

/-- The count of a run is that of its parts (R123). -/
theorem netDelta_append (raw : RawState) (curs more : List RawState) :
    netDelta raw (curs ++ more) = netDelta raw curs + netDelta (curs.getLastD raw) more := by
  induction curs generalizing raw with
  | nil => simp [netDelta]
  | cons cur curs ih => rw [List.cons_append, netDelta, netDelta, ih, List.getLastD_cons, Int.add_assoc]

theorem getLastD_append (raw : RawState) (curs more : List RawState) :
    (curs ++ more).getLastD raw = more.getLastD (curs.getLastD raw) := by
  induction curs generalizing raw with
  | nil => rfl
  | cons cur curs ih => rw [List.cons_append, List.getLastD_cons, List.getLastD_cons, ih]

theorem TickRun.append {u : State} (h : TickRun s t curs) (h' : TickRun t u more) : TickRun s u (curs ++ more) where
  cfg := h'.cfg.trans h.cfg
  constructed := h'.constructed.trans h.constructed
  mode := h'.mode.trans h.mode
  prevExternalPos := h'.prevExternalPos.trans h.prevExternalPos
  rawState := by rw [h'.rawState, h.rawState, getLastD_append]
  internalPos := by
    rw [h'.internalPos, h.internalPos, h.rawState, netDelta_append, BitVec.ofInt_add, BitVec.add_assoc]

/-- One TICK step of a ready block runs TICK on the ports it samples. -/
theorem step_of_tick (hs : s.Ready) (hp : p.TickAt cur) :
    ∃ t, step { s with host := [p] } = .next t ∧ execTick (s.sample p []) = .next t ∧ TickRun s t [cur] := by
  obtain ⟨⟨hr, hop⟩, rfl⟩ := hp
  obtain ⟨t, ht⟩ := execTick_completes (s.sample p [])
  obtain ⟨hcfg, hcon, hmode, hprev, -, -, -, hraw, hint⟩ := execTick_frame ht
  have run : step { s with host := [p] } = execTick (s.sample p []) :=
    step_of_command (s := { s with host := [p] }) rfl hs hr (decode_tick_of_opField hop)
  refine ⟨t, run.trans ht, ht, hcfg, hcon, hmode, hprev, hraw, ?_⟩
  rw [hint, delta_eq_ofInt]
  simp [netDelta]

/-- A run of TICKs completes and adds up. -/
theorem runSteps_of_ticks (hs : s.Ready) (hticks : TicksAt steps curs) :
    ∃ t, s.runSteps steps = .next t ∧ TickRun s t curs := by
  induction steps generalizing s curs with
  | nil =>
    cases curs with
    | nil => exact ⟨_, runSteps_nil s, rfl, rfl, rfl, rfl, rfl, by simp [netDelta]⟩
    | cons cur curs => exact hticks.elim
  | cons p later ih =>
    cases curs with
    | nil => exact hticks.elim
    | cons cur curs =>
      obtain ⟨hp, hlater⟩ := hticks
      obtain ⟨t, ht, -, one⟩ := step_of_tick hs hp
      obtain ⟨u, hu, rest⟩ := ih (one.ready hs) hlater
      refine ⟨u, ?_, one.append rest⟩
      rw [runSteps_cons_eq, ht]
      exact hu

/-- Settles O21, from `runSteps_of_ticks`. -/
theorem ticksAccumulateTheTable : Obligations.TicksAccumulateTheTable := by
  unfold Obligations.TicksAccumulateTheTable
  intro s steps curs hs hticks
  obtain ⟨t, ht, run⟩ := runSteps_of_ticks hs hticks
  exact ⟨t, ht, run.internalPos, run.rawState, run.prevExternalPos, run.mode, run.cfg⟩

/-- The steps of a run of TICKs that ends with the sample `cur` are those before it, and one TICK. -/
theorem ticksAt_concat (h : TicksAt steps (curs ++ [cur])) :
    ∃ before last, steps = before ++ [last] ∧ TicksAt before curs ∧ last.TickAt cur := by
  induction curs generalizing steps with
  | nil =>
    match steps, h with
    | [p], ⟨hp, _⟩ => exact ⟨[], p, rfl, trivial, hp⟩
    | p :: q :: later, ⟨_, hlater⟩ => exact hlater.elim
  | cons c curs ih =>
    match steps, h with
    | p :: later, ⟨hp, hlater⟩ =>
      obtain ⟨before, last, rfl, hbefore, hlast⟩ := ih hlater
      exact ⟨p :: before, last, rfl, ⟨hp, hbefore⟩, hlast⟩

theorem runSteps_singleton (s : State) (p : Ports) : s.runSteps [p] = step { s with host := [p] } := by
  rw [runSteps_cons]
  cases step { s with host := [p] } <;> rfl

/-- A run of TICKs whose last sample is a latch event ends with the positions in agreement. -/
theorem runSteps_of_ticks_latch (hs : s.Ready) (hticks : TicksAt steps (curs ++ [cur]))
    (hne : curs.getLastD s.rawState ≠ cur) (hl : isLatch s.mode cur = true) :
    ∃ t, s.runSteps steps = .next t ∧ TickRun s t (curs ++ [cur]) ∧ t.InSync := by
  obtain ⟨before, last, rfl, hbefore, hlast⟩ := ticksAt_concat hticks
  obtain ⟨t, ht, run⟩ := runSteps_of_ticks hs hbefore
  obtain ⟨u, hu, tick, one⟩ := step_of_tick (run.ready hs) hlast
  obtain ⟨-, rfl⟩ := hlast
  have changed : pinSample last ≠ t.rawState := run.rawState ▸ hne.symm
  refine ⟨u, ?_, run.append one, (execTick_inSync tick).1 changed (run.mode ▸ hl)⟩
  rw [runSteps_append, ht]
  exact (runSteps_singleton t last).trans hu

/-- Settles O32: SET_POSITION adds whole latch positions to INTERNAL_POS (`repositioned_eq_add`), so both runs differ by them to the
end; there the positions are those of INTERNAL_POS, and the phase does not see them. -/
theorem setPositionOffsetsLaterPositions : Obligations.SetPositionOffsetsLaterPositions := by
  unfold Obligations.SetPositionOffsetsLaterPositions
  rintro s u t n steps curs cur offset hs hset rfl hticks hne hl ht lo hi
  rw [exec_setPosition_eq] at hset
  cases hset
  obtain ⟨t', ht', run, sync⟩ := runSteps_of_ticks_latch hs hticks hne hl
  cases ht.symm.trans ht'
  obtain ⟨v, hv, run', sync'⟩ := runSteps_of_ticks_latch (s := { s with
    internalPos := repositioned s.mode s.internalPos n, externalPos := n, prevExternalPos := n, rsp := none }) hs hticks hne hl
  have shifted : v.internalPos = t.internalPos +
      BitVec.ofInt 32 ((n.toInt - (sar32 s.internalPos (shift s.mode)).toInt) * 2 ^ shift s.mode) := by
    rw [run'.internalPos, run.internalPos, repositioned_eq_add, add_right_comm]
  rw [State.InSync, run.mode] at sync
  rw [State.InSync, run'.mode, shifted] at sync'
  refine ⟨v, hv, ?_, ?_⟩
  · rw [sync', sync]
    rw [sync] at lo hi
    exact sar32_add_shifted s.mode t.internalPos lo hi
  · rw [run'.mode, run.mode, shifted]
    exact subLatchPhase_add_shifted s.mode t.internalPos _

end Sys2Proof.Machine
end

section
/-! What a TICK counts after one or more single-bit steps (spec/40_tick.md section 3). -/

namespace Sys2Proof.Machine

variable {s t : State} {steps : List Ports} {next : RawState → RawState}

/-- A step along either sequence counts its direction (R46 (e), (f)). -/
theorem lut_of_step {d : Int} (h : next = forwardOf ∧ d = 1 ∨ next = backwardOf ∧ d = -1) (raw : RawState) :
    (lut (lutKey raw (next raw))).toInt = d := by
  rcases h with ⟨rfl, rfl⟩ | ⟨rfl, rfl⟩ <;> revert raw <;> decide

theorem step_ne_self {d : Int} (h : next = forwardOf ∧ d = 1 ∨ next = backwardOf ∧ d = -1) (raw : RawState) :
    raw ≠ next raw := by
  rcases h with ⟨rfl, -⟩ | ⟨rfl, -⟩ <;> revert raw <;> decide

/-- Every latch state of a mode is `2^shift` steps from the next one the same way. -/
theorem isLatch_after_detent {d : Int} (h : next = forwardOf ∧ d = 1 ∨ next = backwardOf ∧ d = -1) {m : LatchMode}
    {raw : RawState} (hl : isLatch m raw = true) : isLatch m (next^[2 ^ shift m] raw) = true := by
  rcases h with ⟨rfl, -⟩ | ⟨rfl, -⟩ <;> revert raw <;> cases m <;> decide

theorem travel_succ (next : RawState → RawState) (k : Nat) (raw : RawState) :
    travel next (k + 1) raw = travel next k raw ++ [next^[k + 1] raw] := by
  induction k generalizing raw with
  | zero => rfl
  | succ k ih => rw [travel, ih, travel, List.cons_append, Function.iterate_succ_apply next (k + 1)]

theorem getLastD_travel (next : RawState → RawState) (k : Nat) (raw : RawState) :
    (travel next k raw).getLastD raw = next^[k] raw := by
  induction k generalizing raw with
  | zero => rfl
  | succ k ih => rw [travel, List.getLastD_cons, ih, Function.iterate_succ_apply]

theorem netDelta_travel {d : Int} (hd : ∀ raw, (lut (lutKey raw (next raw))).toInt = d) (k : Nat) (raw : RawState) :
    netDelta raw (travel next k raw) = d * k := by
  induction k generalizing raw with
  | zero => simp [travel, netDelta]
  | succ k ih =>
    rw [travel, netDelta, hd, ih]
    push_cast
    ring

/-- `2^shift` TICKs the same way from a latch state end in a latch event, having counted `2^shift` that way. -/
theorem runSteps_of_detent {d : Int} (hs : s.Ready) (hway : next = forwardOf ∧ d = 1 ∨ next = backwardOf ∧ d = -1)
    (hl : isLatch s.mode s.rawState = true) (hticks : TicksAt steps (travel next (2 ^ shift s.mode) s.rawState)) :
    ∃ t, s.runSteps steps = .next t ∧ t.mode = s.mode ∧ isLatch s.mode t.rawState = true ∧ t.InSync ∧
      t.internalPos = s.internalPos + BitVec.ofInt 32 (d * 2 ^ shift s.mode) := by
  have counted := netDelta_travel (lut_of_step hway) (2 ^ shift s.mode) s.rawState
  have latches := isLatch_after_detent hway hl
  obtain ⟨k, hk⟩ := Nat.exists_eq_add_one_of_ne_zero (Nat.two_pow_pos (shift s.mode)).ne'
  have changes : (travel next k s.rawState).getLastD s.rawState ≠ next^[2 ^ shift s.mode] s.rawState := by
    rw [getLastD_travel, hk, Function.iterate_succ_apply']
    exact step_ne_self hway _
  have path : travel next (2 ^ shift s.mode) s.rawState = travel next k s.rawState ++ [next^[2 ^ shift s.mode] s.rawState] := by
    rw [hk, travel_succ]
  rw [path] at hticks counted
  obtain ⟨t, ht, run, sync⟩ := runSteps_of_ticks_latch hs hticks changes latches
  refine ⟨t, ht, run.mode, ?_, sync, ?_⟩
  · rw [run.rawState, getLastD_append]
    exact latches
  · rw [run.internalPos, counted]
    push_cast
    rfl

/-- Settles O22: `runSteps_of_detent`, whose sum does not wrap; the floor division by `2^shift` takes the whole position out. -/
theorem oneDetentMovesThePositionByOne : Obligations.OneDetentMovesThePositionByOne := by
  unfold Obligations.OneDetentMovesThePositionByOne
  intro s steps next d hs hway hl lo hi hticks
  obtain ⟨t, ht, hmode, hlatch, sync, hint⟩ := runSteps_of_detent hs hway hl hticks
  have internal : t.internalPos.toInt = s.internalPos.toInt + d * 2 ^ shift s.mode := by
    rw [hint, BitVec.toInt_add, BitVec.toInt_ofInt, Int.add_bmod_bmod, Int.bmod_eq_of_le (by omega) (by omega)]
  have external : t.externalPos.toInt = s.internalPos.toInt / 2 ^ shift s.mode + d := by
    rw [sync, sar32_toInt, hmode, internal, Int.add_mul_ediv_right _ _ (by positivity)]
  refine ⟨t, ht, hmode ▸ hlatch, internal, external, fun hsync => ?_⟩
  rw [external, hsync, sar32_toInt]

/-- The table of 40_tick.md section 3: mode, samples after reset, INTERNAL_POS and EXTERNAL_POS at their end. -/
def firstDetentRows : List (LatchMode × List RawState × Int × Int) :=
  [ (.fourLatchAt3, [1, 0, 2, 3], 4, 1), (.fourLatchAt3, [2, 0, 1, 3], -4, -1),
    (.fourLatchAt0, [1, 0], 2, 0), (.fourLatchAt0, [2, 0], -2, -1),
    (.twoLatchAt0And3, [1, 0], 2, 1), (.twoLatchAt0And3, [2, 0], -2, -1)]

/-- From raw state 3 the last of the samples `curs` is a latch event of `m`, with the given positions. -/
abbrev IsFirstDetent (m : LatchMode) (curs : List RawState) (internal external : Int) : Prop :=
  curs.dropLast ++ [curs.getLastD 3] = curs ∧ curs.dropLast.getLastD 3 ≠ curs.getLastD 3 ∧
    isLatch m (curs.getLastD 3) = true ∧ (0 + BitVec.ofInt 32 (netDelta 3 curs) : Word).toInt = internal ∧
    internal / 2 ^ shift m = external

theorem firstDetentRows_count : ∀ row ∈ firstDetentRows, IsFirstDetent row.1 row.2.1 row.2.2.1 row.2.2.2 := by
  decide

/-- Settles O23: each row is a run of TICKs that ends in a latch event. -/
theorem firstDetentAfterReset : Obligations.FirstDetentAfterReset := by
  unfold Obligations.FirstDetentAfterReset
  intro s m curs internal external steps hk hrow hticks
  have row : IsFirstDetent m curs internal external := firstDetentRows_count _ hrow
  obtain ⟨hlast, hne, hl, hint, hext⟩ := row
  rw [← hlast] at hticks
  obtain ⟨t, ht, run, sync⟩ := runSteps_of_ticks_latch (s := s.construct m) ⟨rfl, hk⟩ hticks hne hl
  rw [hlast] at run
  have count : t.internalPos.toInt = internal := by
    rw [run.internalPos]
    exact hint
  refine ⟨t, ht, ?_, count, ?_⟩
  · rw [run.rawState, ← hlast, getLastD_append]
    exact hl
  · rw [sync, sar32_toInt, run.mode, count]
    exact hext

/-- From raw state 3, a changed sample is a latch event only at 0, in the modes that latch there. -/
theorem latch_from_three_iff (m : LatchMode) (cur : RawState) :
    (cur ≠ 3 ∧ isLatch m cur = true) ↔ (cur = 0 ∧ m ≠ .fourLatchAt3) := by
  revert cur
  cases m <;> decide

/-- Settles O24: whether the sample is a latch event (`latch_from_three_iff`) decides the timestamps; the table's row of raw state 3
gives the count. -/
theorem firstTickAfterReset : Obligations.FirstTickAfterReset := by
  unfold Obligations.FirstTickAfterReset
  intro s m p cur hk hp
  obtain ⟨t, ht, tick, run⟩ := step_of_tick (s := s.construct m) ⟨rfl, hk⟩ hp
  obtain ⟨-, rfl⟩ := hp
  obtain ⟨latched, unlatched⟩ := execTick_latch tick
  have count : t.internalPos = 0 + BitVec.ofInt 32 (netDelta 3 [pinSample p]) := run.internalPos
  refine ⟨t, (runSteps_singleton _ _).trans ht, run.rawState, ?_⟩
  by_cases hl : pinSample p = 0 ∧ m ≠ .fourLatchAt3
  · obtain ⟨hext, hprior, hlast⟩ := latched ((latch_from_three_iff m _).2 hl)
    obtain ⟨h0, hm⟩ := hl
    rw [h0] at count ⊢
    have zero : t.internalPos = 0 := count
    rw [zero, zero_sar32] at hext
    refine ⟨hext, fun _ => ⟨zero, hprior, ?_⟩, nofun, nofun, nofun⟩
    rw [if_neg hm]
    exact hlast
  · obtain ⟨hext, hprior, hlast⟩ := unlatched (mt (latch_from_three_iff m _).1 hl)
    refine ⟨hext, fun h0 => ⟨?_, hprior, ?_⟩, fun h1 => ⟨?_, hlast, hprior⟩, fun h2 => ⟨?_, hlast, hprior⟩,
      fun h3 => ⟨?_, hlast, hprior⟩⟩
    · rw [count, h0]; rfl
    · rw [if_pos (by_contra fun hm => hl ⟨h0, hm⟩)]
      exact hlast
    · rw [count, h1]; rfl
    · rw [count, h2]; rfl
    · rw [count, h3]; rfl

/-- The timestamps after a TICK with a changed sample: they are shifted at a latch state (R125). -/
theorem execTick_times {p : Ports} (hne : pinSample p ≠ s.rawState) (h : execTick (s.sample p []) = .next t) :
    t.priorChangeTime = (if isLatch s.mode (pinSample p) then s.lastChangeTime else s.priorChangeTime) ∧
      t.lastChangeTime = if isLatch s.mode (pinSample p) then p.nowMs else s.lastChangeTime := by
  obtain ⟨latched, unlatched⟩ := execTick_latch h
  by_cases hl : isLatch s.mode (pinSample p) = true
  · rw [if_pos hl, if_pos hl]
    exact (latched ⟨hne, hl⟩).2
  · rw [if_neg hl, if_neg hl]
    exact (unlatched fun hboth => hl hboth.2).2

theorem netDelta_bounce (raw c : RawState) : netDelta raw ([c] ++ [raw]) = 0 := by
  revert raw c
  decide

/-- Settles O25: the two entries cancel (`netDelta_bounce`), and each of the two changed samples shifts the timestamps by
`execTick_times`. -/
theorem bounceCancelsButLatches : Obligations.BounceCancelsButLatches := by
  unfold Obligations.BounceCancelsButLatches
  intro s c out back hs hc hout hback
  obtain ⟨t, ht, tickOut, runOut⟩ := step_of_tick hs hout
  obtain ⟨u, hu, tickBack, runBack⟩ := step_of_tick (runOut.ready hs) hback
  obtain ⟨-, rfl⟩ := hout
  obtain ⟨-, hraw⟩ := hback
  have run := runOut.append runBack
  have count : u.internalPos = s.internalPos := by
    rw [run.internalPos, netDelta_bounce]
    exact BitVec.add_zero _
  have changed : pinSample back ≠ t.rawState := by
    rw [hraw, runOut.rawState]
    exact hc.symm
  refine ⟨u, ?_, count, run.rawState, fun hl hsync => ?_, ?_⟩
  · rw [runSteps_cons_eq, ht]
    exact (runSteps_singleton t back).trans hu
  · have latch : isLatch t.mode (pinSample back) = true := by rw [hraw, runOut.mode, hl]
    have sync : u.InSync := (execTick_inSync tickBack).1 changed latch
    rw [sync, hsync, count, run.mode]
  · obtain ⟨priorOut, lastOut⟩ := execTick_times hc tickOut
    obtain ⟨priorBack, lastBack⟩ := execTick_times changed tickBack
    rw [priorBack, lastBack, hraw, runOut.mode, priorOut, lastOut]
    cases isLatch s.mode (pinSample out) <;> cases isLatch s.mode s.rawState <;> rfl

/-- TICK adds the table's entry, which is 0 for an unchanged sample. -/
theorem execTick_counts (s : State) :
    ∃ t, exec .tick s = .next t ∧ t.internalPos = s.internalPos + delta (lutKey s.rawState (pinSample s.ports)) := by
  obtain ⟨t, ht⟩ := execTick_completes s
  obtain ⟨-, -, -, -, -, -, -, -, hint⟩ := execTick_frame ht
  exact ⟨t, ht, hint⟩

/-- What the table makes of 1, 2, 3 or 4 unseen steps the same way. -/
theorem delta_after_steps {d : Word} (h : next = forwardOf ∧ d = 1 ∨ next = backwardOf ∧ d = -1) (raw : RawState) :
    delta (lutKey raw (next raw)) = d ∧ delta (lutKey raw (next (next raw))) = 0 ∧
      delta (lutKey raw (next (next (next raw)))) = -d ∧ delta (lutKey raw (next (next (next (next raw))))) = 0 := by
  rcases h with ⟨rfl, rfl⟩ | ⟨rfl, rfl⟩ <;> revert raw <;> decide

/-- Settles O26, from `execTick_counts` and `delta_after_steps`. -/
theorem missedSamplesMiscount : Obligations.MissedSamplesMiscount := by
  unfold Obligations.MissedSamplesMiscount
  intro s next d hway
  obtain ⟨one, two, three, four⟩ := delta_after_steps hway s.rawState
  obtain ⟨t, ht, hint⟩ := execTick_counts s
  refine ⟨fun h => ⟨t, ht, ?_⟩, fun h => ⟨t, ht, ?_⟩, fun h => ⟨t, ht, ?_⟩, fun h => ⟨t, ht, ?_⟩⟩
  · rw [hint, h, one]
  · rw [hint, h, two, add_zero]
  · rw [hint, h, three, BitVec.sub_eq_add_neg]
  · rw [hint, h, four, add_zero]

/-- A TICK that takes INTERNAL_POS from `before` to `after`, its latch event, and GET_DIRECTION from the snapshot `snap` then. -/
theorem tick_then_getDirection {d : BitVec 2} {before after shifted snap code : Word}
    (hne : pinSample s.ports ≠ s.rawState) (hb : s.internalPos = before)
    (hd : lut (lutKey s.rawState (pinSample s.ports)) = d) (hafter : before + d.signExtend 32 = after)
    (hshifted : sar32 after 2 = shifted) (hcode : directionCode (directionOf snap shifted) = code) :
    ∃ t, exec .tick s = .next t ∧ t.internalPos = after ∧
      (isLatch s.mode (pinSample s.ports) = true →
        t.externalPos = sar32 after (shift s.mode) ∧
        (shift s.mode = 2 → t.externalPos = shifted ∧
          (s.prevExternalPos = snap → ∃ u, exec .getDirection t = .next u ∧ u.rsp = some ⟨code, false⟩))) := by
  obtain ⟨t, ht⟩ := execTick_completes s
  obtain ⟨-, -, -, hprev, -, -, -, -, hint⟩ := execTick_frame ht
  have count : t.internalPos = after := by rw [hint, hb, delta, hd, hafter]
  refine ⟨t, ht, count, fun hl => ?_⟩
  have hext : t.externalPos = sar32 after (shift s.mode) := count ▸ ((execTick_latch ht).1 ⟨hne, hl⟩).1
  refine ⟨hext, fun h2 => ?_⟩
  have hext2 : t.externalPos = shifted := by rw [hext, h2, hshifted]
  refine ⟨hext2, fun hsnap => ⟨_, exec_getDirection_eq t, ?_⟩⟩
  rw [hprev, hsnap, hext2, hcode]

/-- Settles O27: `tick_then_getDirection` at each of the two limits. -/
theorem wrapAtTheLimits : Obligations.WrapAtTheLimits := by
  unfold Obligations.WrapAtTheLimits
  intro s hne
  constructor
  · intro hb hd
    exact tick_then_getDirection hne hb hd (by decide) (by decide) (by decide)
  · intro hb hd
    exact tick_then_getDirection hne hb hd (by decide) (by decide) (by decide)

end Sys2Proof.Machine
end

section
/-! The speed estimator's corner cases (spec/43_speed.md sections 1 and 2). -/

namespace Sys2Proof.Machine

variable {s : State}

/-- The difference of two clock readings is the true interval below 2^32 ms (R191). -/
theorem clockReading_sub_toNat {t0 t1 : Nat} (hle : t0 ≤ t1) (hlt : t1 - t0 < 2 ^ 32) :
    (clockReading t1 - clockReading t0).toNat = t1 - t0 := by
  rw [clockReading, clockReading, BitVec.toNat_sub, BitVec.toNat_ofNat, BitVec.toNat_ofNat]
  omega

/-- Settles O37, from `clockReading_sub_toNat`. -/
theorem intervalSurvivesClockWrap : Obligations.IntervalSurvivesClockWrap := by
  unfold Obligations.IntervalSurvivesClockWrap
  intro s t0 t1 hprior hlast hle hlt
  refine ⟨_, _, exec_getMillis_eq s, rfl, rfl, ?_⟩
  rw [hlast, hprior, clockReading_sub_toNat hle hlt]

theorem sub_toNat_eq_zero_iff (a b : Word) : (a - b).toNat = 0 ↔ a = b := by
  rw [← BitVec.toNat_inj, BitVec.toNat_sub]
  omega

/-- The time step is 0 exactly where LAST, PRIOR and the clock agree (R197). -/
theorem rpmInterval_eq_zero_iff :
    (rpmInterval s).toNat = 0 ↔ s.lastChangeTime = s.priorChangeTime ∧ s.ports.nowMs = s.lastChangeTime := by
  rw [rpmInterval_toNat, Nat.max_eq_zero_iff, sub_toNat_eq_zero_iff, sub_toNat_eq_zero_iff]

/-- Settles O39: the undefined bit goes with the zero time step. -/
theorem sentinelExactlyAtZeroInterval : Obligations.SentinelExactlyAtZeroInterval := by
  unfold Obligations.SentinelExactlyAtZeroInterval
  intro s hk
  refine ⟨_, _, exec_getRpm_eq hk, rfl, ?_⟩
  rw [← rpmInterval_eq_zero_iff]
  by_cases h : (rpmInterval s).toNat = 0
  · simp [rpmResponse_of_zero h, h]
  · simp [rpmResponse_of_ne_zero h, h]

/-- A state whose time step is 1 ms, with the latch events and the clock at 0, 1 and 1 ms. -/
def oneMillisecondState (cfg : Config) : State :=
  { State.reset with cfg := cfg, lastChangeTime := 1, priorChangeTime := 0, ports := { Ports.afterReset with nowMs := 1 } }

theorem rpmInterval_oneMillisecondState (cfg : Config) : (rpmInterval (oneMillisecondState cfg)).toNat = 1 := by
  have longer : max ((1 : Word) - 0).toNat ((1 : Word) - 1).toNat = 1 := by decide
  exact (rpmInterval_toNat _).trans longer

/-- A defined response is the quotient by the time step and LATCHES_PER_REV (R195). -/
theorem rpmResponse_data_toNat (h : (rpmInterval s).toNat ≠ 0) :
    (rpmResponse s).data.toNat = 60000 / ((rpmInterval s).toNat * s.cfg.latchesPerRev) := by
  rw [rpmResponse_of_ne_zero h, rpmQuotient_toNat]

/-- Settles O41: the time step is at least 1 ms, and `oneMillisecondState` has it at 1 ms. -/
theorem rpmIsBounded : Obligations.RpmIsBounded := by
  unfold Obligations.RpmIsBounded
  constructor
  · intro s hk
    refine ⟨_, _, exec_getRpm_eq hk, rfl, fun hd => ?_⟩
    have hne := rpmResponse_defined_iff.1 hd
    rw [rpmResponse_data_toNat hne]
    exact Nat.div_le_div_left (Nat.le_mul_of_pos_left _ (Nat.pos_of_ne_zero hne)) hk
  · intro cfg hk
    have one := rpmInterval_oneMillisecondState cfg
    have hne : (rpmInterval (oneMillisecondState cfg)).toNat ≠ 0 := by omega
    refine ⟨oneMillisecondState cfg, _, _, rfl, ⟨rfl, hk⟩, exec_getRpm_eq hk, rfl, rpmResponse_defined_iff.2 hne, ?_⟩
    rw [rpmResponse_data_toNat hne, one, Nat.one_mul]
    rfl

/-- Settles O43: the time since the last latch event is above the threshold of `exec_getRpm_of_stale`. -/
theorem backwardClockGivesZero : Obligations.BackwardClockGivesZero := by
  unfold Obligations.BackwardClockGivesZero
  intro s hk hback hlim
  have long : 2 ^ 31 ≤ (s.ports.nowMs - s.lastChangeTime).toNat := by
    rw [BitVec.toNat_sub]
    omega
  refine ⟨long, exec_getRpm_of_stale hk ?_⟩
  calc 60000 < (s.ports.nowMs - s.lastChangeTime).toNat := by omega
    _ ≤ (s.ports.nowMs - s.lastChangeTime).toNat * s.cfg.latchesPerRev := Nat.le_mul_of_pos_right _ hk

/-- A quotient `60000 / D` that is no integer lies at least `1 / D` above its floor and below the next integer. -/
theorem quotient_between {D : Nat} (hD : 1 ≤ D) (hrem : 60000 % D ≠ 0) :
    ((60000 / D : Nat) : ℚ) + 1 / D ≤ 60000 / D ∧ (60000 : ℚ) / D + 1 / D ≤ (60000 / D : Nat) + 1 := by
  have hpos : (0 : ℚ) < D := by exact_mod_cast hD
  have parts := Nat.div_add_mod 60000 D
  have hlt := Nat.mod_lt 60000 hD
  have low : D * (60000 / D) + 1 ≤ 60000 := by omega
  have high : 60000 + 1 ≤ D * (60000 / D) + D := by omega
  constructor
  · rw [le_div_iff₀ hpos, add_mul, one_div_mul_cancel hpos.ne', mul_comm]
    exact_mod_cast low
  · rw [← add_div, div_le_iff₀ hpos, add_mul, one_mul, mul_comm]
    exact_mod_cast high

/-- A product that is exact as a float: the rounding error of the quotient is below `1 / D`, so it crosses no integer. -/
theorem floor_rounded_of_exact {D : Nat} {q : ℚ} (hD : 1 ≤ D) (hq : |q - 60000 / D| ≤ 60000 / D / 2 ^ 24)
    (hint : ∀ k : ℤ, (60000 : ℚ) / D = k → q = k) : ⌊q⌋ = ((60000 / D : Nat) : ℤ) := by
  by_cases hrem : 60000 % D = 0
  · have integer : (60000 : ℚ) / D = ((60000 / D : Nat) : ℤ) := by
      rw [Int.cast_natCast, Nat.cast_div_charZero (Nat.dvd_of_mod_eq_zero hrem)]
      rfl
    rw [hint _ integer, Int.floor_intCast]
  · obtain ⟨low, high⟩ := quotient_between hD hrem
    obtain ⟨below, above⟩ := abs_le.1 hq
    have unit : (0 : ℚ) < 1 / D := one_div_pos.2 (by exact_mod_cast hD)
    have scaled : (60000 : ℚ) / D = 60000 * (1 / D) := div_eq_mul_one_div _ _
    have small : (60000 : ℚ) / D / 2 ^ 24 < 1 / D := by
      rw [scaled]
      linarith
    rw [Int.floor_eq_iff, Int.cast_natCast]
    constructor <;> linarith

/-- A product above 60000 by so much that neither rounding brings the quotient up to 1. -/
theorem floor_rounded_of_large {D : Nat} {d q : ℚ} (hD : 2 ^ 24 ≤ D) (hd : |d - D| ≤ D / 2 ^ 24)
    (hq : |q - 60000 / d| ≤ 60000 / d / 2 ^ 24) : ⌊q⌋ = ((60000 / D : Nat) : ℤ) := by
  have hDq : (2 : ℚ) ^ 24 ≤ D := by exact_mod_cast hD
  have large : 120000 < d := by linarith [(abs_le.1 hd).1]
  have positive : (0 : ℚ) < 60000 / d := div_pos (by norm_num) (by linarith)
  have half : (60000 : ℚ) / d < 1 / 2 := (div_lt_iff₀ (by linarith)).2 (by linarith)
  obtain ⟨below, above⟩ := abs_le.1 hq
  rw [Nat.div_eq_of_lt (by omega), Int.floor_eq_iff]
  push_cast
  constructor <;> linarith

/-- Settles O42: the defined response is the quotient, and its product is exact below 2^24 and large above. -/
theorem rpmAgreesWithFloatingPoint : Obligations.RpmAgreesWithFloatingPoint := by
  unfold Obligations.RpmAgreesWithFloatingPoint
  rintro s _ d q hk rfl hpos - hexact hd hq hint
  have hne : (rpmInterval s).toNat ≠ 0 := fun h0 => by simp [h0] at hpos
  refine ⟨_, _, exec_getRpm_eq hk, rfl, rpmResponse_defined_iff.2 hne, ?_⟩
  rw [rpmResponse_data_toNat hne]
  rcases Nat.lt_or_ge ((rpmInterval s).toNat * s.cfg.latchesPerRev) (2 ^ 24) with hlt | hge
  · rw [hexact hlt] at hq hint
    exact (floor_rounded_of_exact hpos hq hint).symm
  · exact (floor_rounded_of_large hge hd hq).symm

end Sys2Proof.Machine
end
